-- ==== Sys2Proof/Word.lean ====
section
/-! DEFINITION. The word types of the BFC: widths fixed by 00_scope.md R7, R8 and 30_encoding.md R92. -/

namespace Sys2Proof

/-- A host-visible register, or the command data field: `W = 32` bits (R8). -/
abbrev Word := BitVec 32

/-- A code unit, one element of a text: 8 bits (R7). -/
abbrev CodeUnit := BitVec 8

/-- A command word: `CMD_WIDTH = 40` bits (R8, R92). -/
abbrev CmdWord := BitVec 40

/-- A Bit is a boolean, `1` for true and `0` for false (R13). -/
abbrev Bit := Bool

end Sys2Proof
end

