-- ==== Sys2Proof/Syntax.lean ====
section
/-! DEFINITION. The command set of the BFC: the sixteen selectors of the register file (10_state.md R21) and the
sixteen rows of the opcode map (30_encoding.md R94, spec/opcode_table.json), one constructor per row. -/

namespace Sys2Proof

/-- The selectors `sel` 0 to 15 of the register file, in the order of R21 and R98. -/
inductive Sel where
  | srate | tbps | tcar | repeatCount | preamble | gapms
  | reserved6 | reserved7
  | status | psrate | spb | ppb | txlen | linelen | decstate
  | reserved15
deriving DecidableEq, Repr

/-- One command. A field that its operation ignores (R96) is no argument of the constructor. -/
inductive Instr where
  /-- `NOP`, R210. -/
  | nop
  /-- `SETP sel, data`, R211. -/
  | setp (sel : Sel) (data : Word)
  /-- `GETP sel`, R212. -/
  | getp (sel : Sel)
  /-- `DERIVE`, R112. -/
  | derive
  /-- `TXCLR`, R136. -/
  | txclr
  /-- `TXPUSH data[7:0]`, R137. -/
  | txpush (codeUnit : CodeUnit)
  /-- `ENCODE`, R140. -/
  | encode
  /-- `LINECLR`, R191. -/
  | lineclr
  /-- `LINEPUSH data[0]`, R192. -/
  | linepush (b : Bit)
  /-- `SYNTH`, R193. -/
  | synth
  /-- `RXBIT data[0]`, R162. -/
  | rxbit (raw : Bit)
  /-- `RXRESET`, R180. -/
  | rxreset
  /-- reserved opcode `0xC`, R214. -/
  | reservedC
  /-- reserved opcode `0xD`, R214. -/
  | reservedD
  /-- reserved opcode `0xE`, R214. -/
  | reservedE
  /-- reserved opcode `0xF`, R214. -/
  | reservedF
deriving DecidableEq, Repr

end Sys2Proof
end

