-- ==== Sys2Proof/WellFormed.lean ====
section
/-! DEFINITION. Which commands a host may give. Every operand has exactly its field's width by its type, so the checks
left are those the spec makes of a host: the assembler has no mnemonic for a reserved opcode (30_encoding.md R94, R100;
45_host.md R214 "a host must not use them"), and `SETP` and `GETP` may name only the selectors of 45_host.md R213. The
machine RUNS an ill-formed command too, as the spec says it does (`ILLCMD`); no meaning depends on this file. -/

namespace Sys2Proof

/-- The column "access" of R21: RW for the six parameter registers. -/
def Sel.writable : Sel → Bool
  | .srate | .tbps | .tcar | .repeatCount | .preamble | .gapms => true
  | .reserved6 | .reserved7 | .reserved15 => false
  | .status | .psrate | .spb | .ppb | .txlen | .linelen | .decstate => false

/-- Selectors 6, 7 and 15 are reserved (R21, R213). -/
def Sel.reserved : Sel → Bool
  | .reserved6 | .reserved7 | .reserved15 => true
  | .srate | .tbps | .tcar | .repeatCount | .preamble | .gapms => false
  | .status | .psrate | .spb | .ppb | .txlen | .linelen | .decstate => false

/-- A command that a host may give: no reserved opcode (R214), `SETP` of a writable selector and `GETP` of one that is
not reserved (R213). -/
def Instr.wellFormed : Instr → Bool
  | .setp sel _ => sel.writable
  | .getp sel => !sel.reserved
  | .reservedC | .reservedD | .reservedE | .reservedF => false
  | .nop | .derive | .txclr | .txpush _ | .encode | .lineclr | .linepush _ | .synth | .rxbit _ | .rxreset => true

end Sys2Proof
end

