-- ==== Sys2Proof/Decode.lean ====
section
/-! DEFINITION. The command word: its fields (30_encoding.md R93), decoding (R94 to R96, R98, R99), the canonical encoder
(R101), and the opcode map as a table of masks and matches (R94). Decoding is total on all 2^40 words (R95): there is no
word to reject, since the reserved opcodes are rows of their own. -/

namespace Sys2Proof

/-! ### Fields of the command word (R93) -/

/-- `op`, bits 39:36. -/
def cmdOp (w : CmdWord) : BitVec 4 := w.extractLsb' 36 4

/-- `sel`, bits 35:32. -/
def cmdSel (w : CmdWord) : BitVec 4 := w.extractLsb' 32 4

/-- `data`, bits 31:0. -/
def cmdData (w : CmdWord) : Word := w.extractLsb' 0 32

/-- The code unit `data[7:0]` (R99). -/
def dataUnit (d : Word) : CodeUnit := d.extractLsb' 0 8

/-- The bit `data[0]` (R99). -/
def dataBit (d : Word) : Bit := d.getLsbD 0

/-- `op`, `sel` and `data` put together in the places of R93. -/
def mkCmd (op sel : BitVec 4) (data : Word) : CmdWord := op ++ sel ++ data

/-! ### Selectors (R21, R98) -/

/-- The selector a 4-bit field names (R98). -/
def selOfCode (c : BitVec 4) : Sel :=
  match c.toNat with
  | 0 => .srate
  | 1 => .tbps
  | 2 => .tcar
  | 3 => .repeatCount
  | 4 => .preamble
  | 5 => .gapms
  | 6 => .reserved6
  | 7 => .reserved7
  | 8 => .status
  | 9 => .psrate
  | 10 => .spb
  | 11 => .ppb
  | 12 => .txlen
  | 13 => .linelen
  | 14 => .decstate
  | _ => .reserved15   -- 15, the only value left of a 4-bit field

/-- The number of a selector (R98). -/
def selCode : Sel → BitVec 4
  | .srate => 0
  | .tbps => 1
  | .tcar => 2
  | .repeatCount => 3
  | .preamble => 4
  | .gapms => 5
  | .reserved6 => 6
  | .reserved7 => 7
  | .status => 8
  | .psrate => 9
  | .spb => 10
  | .ppb => 11
  | .txlen => 12
  | .linelen => 13
  | .decstate => 14
  | .reserved15 => 15

/-! ### Decoding and encoding -/

/-- The instruction a command word stands for (R94). Total (R95); fields an operation does not use are ignored (R96). -/
def decode (w : CmdWord) : Instr :=
  match (cmdOp w).toNat with
  | 0x0 => .nop
  | 0x1 => .setp (selOfCode (cmdSel w)) (cmdData w)
  | 0x2 => .getp (selOfCode (cmdSel w))
  | 0x3 => .derive
  | 0x4 => .txclr
  | 0x5 => .txpush (dataUnit (cmdData w))
  | 0x6 => .encode
  | 0x7 => .lineclr
  | 0x8 => .linepush (dataBit (cmdData w))
  | 0x9 => .synth
  | 0xA => .rxbit (dataBit (cmdData w))
  | 0xB => .rxreset
  | 0xC => .reservedC
  | 0xD => .reservedD
  | 0xE => .reservedE
  | _ => .reservedF   -- 0xF, the only value left of a 4-bit field

/-- The canonical command word, zeros in unused fields (R96, R101). -/
def encode : Instr → CmdWord
  | .nop => mkCmd 0x0 0 0
  | .setp sel data => mkCmd 0x1 (selCode sel) data
  | .getp sel => mkCmd 0x2 (selCode sel) 0
  | .derive => mkCmd 0x3 0 0
  | .txclr => mkCmd 0x4 0 0
  | .txpush u => mkCmd 0x5 0 (u.setWidth 32)
  | .encode => mkCmd 0x6 0 0
  | .lineclr => mkCmd 0x7 0 0
  | .linepush b => mkCmd 0x8 0 ((BitVec.ofBool b).setWidth 32)
  | .synth => mkCmd 0x9 0 0
  | .rxbit b => mkCmd 0xA 0 ((BitVec.ofBool b).setWidth 32)
  | .rxreset => mkCmd 0xB 0 0
  | .reservedC => mkCmd 0xC 0 0
  | .reservedD => mkCmd 0xD 0 0
  | .reservedE => mkCmd 0xE 0 0
  | .reservedF => mkCmd 0xF 0 0

/-! ### The opcode map as a table (R94) -/

/-- The mnemonic of an instruction's row, as spec/opcode_table.json spells it. -/
def mnemonic : Instr → String
  | .nop => "NOP"
  | .setp _ _ => "SETP"
  | .getp _ => "GETP"
  | .derive => "DERIVE"
  | .txclr => "TXCLR"
  | .txpush _ => "TXPUSH"
  | .encode => "ENCODE"
  | .lineclr => "LINECLR"
  | .linepush _ => "LINEPUSH"
  | .synth => "SYNTH"
  | .rxbit _ => "RXBIT"
  | .rxreset => "RXRESET"
  | .reservedC => "RESERVED_C"
  | .reservedD => "RESERVED_D"
  | .reservedE => "RESERVED_E"
  | .reservedF => "RESERVED_F"

/-- One row of the opcode map: a word `c` selects it when `(c AND mask) == matchWord` (R94). -/
structure OpcodeRow where
  mnemonic : String
  mask : CmdWord
  matchWord : CmdWord
deriving DecidableEq, Repr

/-- The opcode map of R94, with the reserved opcodes as spec/opcode_table.json lists them. -/
def opcodeTable : List OpcodeRow :=
  [ ⟨"NOP", 0xF000000000, 0x0000000000⟩,
    ⟨"SETP", 0xF000000000, 0x1000000000⟩,
    ⟨"GETP", 0xF000000000, 0x2000000000⟩,
    ⟨"DERIVE", 0xF000000000, 0x3000000000⟩,
    ⟨"TXCLR", 0xF000000000, 0x4000000000⟩,
    ⟨"TXPUSH", 0xF000000000, 0x5000000000⟩,
    ⟨"ENCODE", 0xF000000000, 0x6000000000⟩,
    ⟨"LINECLR", 0xF000000000, 0x7000000000⟩,
    ⟨"LINEPUSH", 0xF000000000, 0x8000000000⟩,
    ⟨"SYNTH", 0xF000000000, 0x9000000000⟩,
    ⟨"RXBIT", 0xF000000000, 0xA000000000⟩,
    ⟨"RXRESET", 0xF000000000, 0xB000000000⟩,
    ⟨"RESERVED_C", 0xF000000000, 0xC000000000⟩,
    ⟨"RESERVED_D", 0xF000000000, 0xD000000000⟩,
    ⟨"RESERVED_E", 0xF000000000, 0xE000000000⟩,
    ⟨"RESERVED_F", 0xF000000000, 0xF000000000⟩ ]

/-- A word selects a row (R94). -/
def OpcodeRow.selects (r : OpcodeRow) (c : CmdWord) : Bool := c &&& r.mask == r.matchWord

/-! ### The opcode table's own numbering -/

/-- The command word whose low `nbits` bits are those of `w` and whose other bits are 0. A command word is one 40-bit value
that the spec never splits (20_memory.md R64), so the table's bit 0 is the word's bit 0 (notes/assumptions/10.md). -/
def tableWord (nbits w : Nat) : CmdWord := BitVec.ofNat 40 (w % 2 ^ nbits)

/-- What the decoder reads from an instruction whose `nbits` bits are `w`, numbered as spec/opcode_table.json numbers
them. More than 40 bits are no command word (R92) and are refused. -/
def decodeTableWord (nbits w : Nat) : Option Instr :=
  if nbits ≤ 40 then some (decode (tableWord nbits w)) else none

end Sys2Proof
end

