-- ==== Sys2Proof/Config.lean ====
section
/-! DEFINITION. The OPEN parameters of 00_scope.md R8: `TXBUF_SIZE`, `LINE_DEPTH` and the quantiser `Q`. An OPEN parameter "is
a field of the model's configuration: it is fixed before reset, never changes while the BFC runs, and no command reads or
writes it". State carries the configuration in a field no command writes (notes/assumptions/3.md), so that every statement
about every state is a statement about every value of the parameters. -/

namespace Sys2Proof

/-- The quantisers other than the identity, by number. It has no body: which functions they are is open (R8, R199), and what
is proved of a state with one of them is proved for every function on the reals (notes/assumptions/4.md). -/
noncomputable opaque Config.openQuantiser : Nat → ℝ → ℝ

/-- The OPEN parameter `Q` (R8) as plain data: the name of the function applied to each sample when it leaves on `SAMP`. -/
inductive Quantiser where
  /-- The default, the identity on the real numbers. -/
  | identity
  /-- Any other function, `Config.openQuantiser n`. -/
  | other (n : Nat)
deriving DecidableEq, Repr

/-- The function that a quantiser is. -/
noncomputable def Quantiser.apply : Quantiser → ℝ → ℝ
  | .identity, v => v
  | .other n, v => Config.openQuantiser n v

/-- `TXBUF_SIZE`, `LINE_DEPTH` and `Q` (R8). -/
structure Config where
  /-- `TXBUF_SIZE`, the capacity of `TXBUF` in code units. -/
  txbufSize : Nat
  /-- `LINE_DEPTH`, the capacity of `LINE` in bits; `none` is unbounded. -/
  lineDepth : Option Nat
  /-- `Q`, the quantiser of `SAMP`. -/
  quantiser : Quantiser
deriving DecidableEq, Repr

/-- The defaults of R8: 256 code units, unbounded, the identity. -/
def Config.default : Config := { txbufSize := 256, lineDepth := none, quantiser := .identity }

/-- R8: `TXBUF_SIZE` is "any integer from 1 to 2^32 − 1". -/
abbrev Config.wf (c : Config) : Prop := 1 ≤ c.txbufSize ∧ c.txbufSize ≤ 2 ^ 32 - 1

end Sys2Proof
end

