-- ==== Sys2Proof/Machine/State.lean ====
section
/-! DEFINITION. The state of the BFC (10_state.md R20), the reasons a step can stop, and the state after reset (R50). -/

namespace Sys2Proof.Machine

/-- The decoder's current state (R36), in the order of its encoding 0 to 4 (R97). The values 5 to 7 of the 3-bit register
"are never written by any rule" and have no constructor (notes/assumptions/8.md). -/
inductive Mode where
  | waitSync | waitStart | decode | skipOne | skipTwo
deriving DecidableEq, Repr

/-- The mode WaitSync leaves to (R37): WaitStart (0) or Decode (1). -/
inductive ResumeMode where
  | waitStart | decode
deriving DecidableEq, Repr

/-- A sample before the quantiser `Q` (R44, 44_waveform.md R193), held exactly: what the rules compute is 0 or
`sym * cos(2π * phaseAcc / SPB)`. Its real value is `Sample.value` (Machine/Waveform.lean); see notes/assumptions/5.md. -/
inductive Sample where
  /-- A gap sample, the real number 0 (R196). -/
  | gap
  /-- A sample of the signal part (R195): symbol `+1` for true and `−1` for false (R194), phase accumulator, `SPB`. -/
  | carrier (sym : Bit) (phaseAcc spb : Nat)
deriving DecidableEq, Repr

/-- One element of `SAMP`, `Q(v)` (R44): the quantiser that the sample was passed through as it left (R199), and the exact
sample it was applied to. Its real value is `QSample.value` (Machine/Waveform.lean); see notes/assumptions/4.md. -/
structure QSample where
  quantiser : Quantiser
  exact : Sample
deriving DecidableEq, Repr

/-- The six parameter registers (R22). -/
structure Params where
  /-- `SRATE`, sel 0. -/
  srate : Word
  /-- `TBPS`, sel 1. -/
  tbps : Word
  /-- `TCAR`, sel 2. -/
  tcar : Word
  /-- `REPEAT`, sel 3. -/
  repeatCount : Word
  /-- `PREAMBLE`, sel 4. -/
  preamble : Word
  /-- `GAPMS`, sel 5. -/
  gapms : Word
deriving DecidableEq, Repr

/-- The seven flags of `STATUS` (R23); bits 31 to 7 of the register have no storage. -/
structure Status where
  pvalid : Bool
  cfgerr : Bool
  txovf : Bool
  badarg : Bool
  noprof : Bool
  illcmd : Bool
  lineovf : Bool
deriving DecidableEq, Repr

/-- The profile registers (R24); their fourth item is the flag `PVALID`. -/
structure Profile where
  /-- `PSRATE`, sel 9. -/
  psrate : Word
  /-- `SPB`, sel 10. -/
  spb : Word
  /-- `PPB`, sel 11. -/
  ppb : Word
deriving DecidableEq, Repr

/-- The seven registers of the frame decoder (R35 to R42). -/
structure Decoder where
  mode : Mode
  resumeMode : ResumeMode
  shiftBuf : BitVec 8
  bitCnt : BitVec 4
  onesCnt : BitVec 3
  syncRun : BitVec 3
  lastRaw : Bit
deriving DecidableEq, Repr

/-- The decoder registers after reset (R50), which are also those after `RXRESET` (R180). -/
def Decoder.reset : Decoder :=
  { mode := .waitSync, resumeMode := .waitStart, shiftBuf := 0x00, bitCnt := 0, onesCnt := 0, syncRun := 0,
    lastRaw := false }

/-- The complete state (R20), with the host's stream `CMD` (R10, notes/assumptions/1.md) and the OPEN parameters
(R8, notes/assumptions/3.md) beside it. -/
structure State where
  /-- The OPEN parameters; no command writes them. -/
  cfg : Config
  /-- `CMD`: the command words given and not yet executed, next one first (R10). -/
  cmd : List CmdWord
  /-- `SRATE`, `TBPS`, `TCAR`, `REPEAT`, `PREAMBLE`, `GAPMS` (R22). -/
  params : Params
  /-- `STATUS`, sel 8 (R23). -/
  status : Status
  /-- `PSRATE`, `SPB`, `PPB` (R24). -/
  profile : Profile
  /-- `TXLEN`, sel 12 (R30). -/
  txlen : Word
  /-- `TXBUF` (R30), as cells in the canonical form of `Memory.wf` (Machine/Ops.lean). -/
  txbuf : List Host.Cell
  /-- `LINE`, head first (R33). -/
  line : List Bit
  /-- The frame decoder's registers (R35). -/
  dec : Decoder
  /-- `rxLog` (R45). -/
  rxLog : List CodeUnit
  /-- The trace `LINEOUT`, oldest first (R46). -/
  lineOut : List Bit
  /-- The trace `SAMP`, oldest first (R44). -/
  samp : List QSample
  /-- The trace `RXOUT`, oldest first (R45). -/
  rxOut : List CodeUnit
  /-- The trace `RSP`, oldest first (R47). -/
  rsp : List Word
deriving DecidableEq, Repr

/-- The reasons a step stops with a fault. -/
inductive Fault where
  /-- Raised by an access to `TXBUF` at an index `>= TXBUF_SIZE` (20_memory.md R61 says no rule forms one). Raised by
  TXPUSH and ENCODE, and only from states where `TXLEN` is above `TXBUF_SIZE`, which no run reaches. Safe: the model stops
  where the spec gives no location (notes/assumptions/7.md). -/
  | txbufIndex (addr : Nat)
deriving DecidableEq, Repr

/-- The reasons a step is refused BY THE MODEL. (A command the SPEC calls refused, R16, is a next state with a flag set.) -/
inductive Refusal where
  /-- An instruction that has no meaning in the model; raised by no arm of exec now. Safe. -/
  | notModelled (mnemonic : String)
deriving DecidableEq, Repr

/-- The state after reset, for given OPEN parameters (R50, 70_reset_and_hazards.md R250). -/
def State.resetWith (cfg : Config) : State :=
  { cfg := cfg
    cmd := []
    params := { srate := 16000, tbps := 50, tcar := 2000, repeatCount := 1, preamble := 0, gapms := 0 }
    status := { pvalid := false, cfgerr := false, txovf := false, badarg := false, noprof := false, illcmd := false,
                lineovf := false }
    profile := { psrate := 0, spb := 0, ppb := 0 }
    txlen := 0
    txbuf := []
    line := []
    dec := Decoder.reset
    rxLog := []
    lineOut := []
    samp := []
    rxOut := []
    rsp := [] }

/-- The state after reset with the default parameters of R8. -/
def State.reset : State := State.resetWith Config.default

end Sys2Proof.Machine
end

