-- ==== Sys2Proof/Machine/ByteBits.lean ====
section
/-! DEFINITION. BBC, the byte and bit converter (41_bytebits.md): two pure functions without a command (R125, R130). -/

namespace Sys2Proof.Machine

/-- `toBits`: 8 bits, most significant first (R126). -/
def toBits (v : CodeUnit) : Vector Bit 8 :=
  #v[v.getLsbD 7, v.getLsbD 6, v.getLsbD 5, v.getLsbD 4, v.getLsbD 3, v.getLsbD 2, v.getLsbD 1, v.getLsbD 0]

/-- `fromBits`: the weighted sum with weights 128 to 1, the first bit taking 128 (R127). Its argument has 8 bits by its
type, so the source's undefined case cannot be formed (U1). -/
def fromBits (s : Vector Bit 8) : CodeUnit :=
  BitVec.ofNat 8 (128 * s[0].toNat + 64 * s[1].toNat + 32 * s[2].toNat + 16 * s[3].toNat + 8 * s[4].toNat
    + 4 * s[5].toNat + 2 * s[6].toNat + 1 * s[7].toNat)

end Sys2Proof.Machine
end

