-- ==== Sys2Proof/Machine/Flags.lean ====
section
/-! DEFINITION. The flags of `STATUS` (10_state.md R23, R27) and the two ways a command fails to complete
(60_exceptions.md R226): a refusal sets one sticky flag, a ConfigurationError invalidates the profile. The BFC has no trap:
this is all that an error does (R231). -/

namespace Sys2Proof.Machine

/-- The five sticky refusal flags (R23, R228). -/
inductive RefusalFlag where
  | txovf | badarg | noprof | illcmd | lineovf
deriving DecidableEq, Repr

/-- A flag of `STATUS` set to 1; the others stay (R228, R232). -/
def Status.set (f : RefusalFlag) (st : Status) : Status :=
  match f with
  | .txovf => { st with txovf := true }
  | .badarg => { st with badarg := true }
  | .noprof => { st with noprof := true }
  | .illcmd => { st with illcmd := true }
  | .lineovf => { st with lineovf := true }

/-- The value of a refusal flag. -/
def Status.get (f : RefusalFlag) (st : Status) : Bool :=
  match f with
  | .txovf => st.txovf
  | .badarg => st.badarg
  | .noprof => st.noprof
  | .illcmd => st.illcmd
  | .lineovf => st.lineovf

/-- `STATUS` as a 32-bit word: bit 0 `PVALID`, 1 `CFGERR`, 2 `TXOVF`, 3 `BADARG`, 4 `NOPROF`, 5 `ILLCMD`, 6 `LINEOVF`,
bits 31 to 7 always 0 (R23). -/
def Status.pack (st : Status) : Word :=
  0#25 ++ BitVec.ofBool st.lineovf ++ BitVec.ofBool st.illcmd ++ BitVec.ofBool st.noprof ++ BitVec.ofBool st.badarg
    ++ BitVec.ofBool st.txovf ++ BitVec.ofBool st.cfgerr ++ BitVec.ofBool st.pvalid

/-- A refused command: its flag is set and nothing else changes (00_scope.md R16, R226, R228). -/
def State.refuse (f : RefusalFlag) (s : State) : State := { s with status := s.status.set f }

/-- ConfigurationError: the profile is lost, the parameter registers stay (40_profile.md R114, R227). -/
def State.configurationError (s : State) : State :=
  { s with
    status := { s.status with pvalid := false, cfgerr := true }
    profile := { psrate := 0, spb := 0, ppb := 0 } }

end Sys2Proof.Machine
end

