-- ==== Sys2Proof/Machine/Ops.lean ====
section
/-! DEFINITION. The constants of 00_scope.md R7 and the named operations over `TXBUF`, `LINE` and the traces
(00_scope.md R15, 20_memory.md). -/

namespace Sys2Proof.Machine

/-! ### Constants (R7) -/

/-- `SYNC`, first bit first (R81). -/
def sync : List Bit := [false, true, true, true, true, true, true, false]

/-- `SYNC` as a byte, `0x7E` (R7). -/
abbrev syncByte : CodeUnit := 0x7E

/-- `FRAME_SIZE`. -/
abbrev frameSize : Nat := 10

/-- `MAX_ONES`. -/
abbrev maxOnes : Nat := 5

/-- `START_SYNCS`. -/
abbrev startSyncs : Nat := 5

/-! ### `TXBUF` as memory (R30, R60, R61)

Cells in strictly rising index order, none equal to what an unlisted index reads as. -/

/-- What a code unit of `TXBUF` that nothing has written reads as. The spec leaves it unspecified and never reads it
(R252, U14); notes/assumptions/6.md. -/
def blankUnit : CodeUnit := 0x00

/-- The canonical form of a memory. -/
abbrev Memory.wf (m : List Host.Cell) : Prop :=
  m.Pairwise (fun a b => a.1 < b.1) ∧ ∀ c ∈ m, c.2 ≠ blankUnit

/-- The unit at an index. -/
def Memory.read : List Host.Cell → Nat → CodeUnit
  | [], _ => blankUnit
  | (b, x) :: rest, a => if b = a then x else Memory.read rest a

/-- A cell put in front, unless it holds what an unlisted index reads as. -/
def Memory.cons (a : Nat) (v : CodeUnit) (m : List Host.Cell) : List Host.Cell :=
  if v = blankUnit then m else (a, v) :: m

/-- The memory with the unit at an index replaced, again in canonical form. -/
def Memory.write : List Host.Cell → Nat → CodeUnit → List Host.Cell
  | [], a, v => Memory.cons a v []
  | (b, x) :: rest, a, v =>
    if a < b then Memory.cons a v ((b, x) :: rest)
    else if a = b then Memory.cons a v rest
    else (b, x) :: Memory.write rest a v

/-- `MemRead(addr, 1)` (R15, R61). An index outside the buffer does not exist (R30). -/
def State.memRead (s : State) (addr : Nat) : Except Fault CodeUnit :=
  if addr < s.cfg.txbufSize then .ok (Memory.read s.txbuf addr) else .error (.txbufIndex addr)

/-- `MemWrite(addr, 1, v)` (R15, R61). An index outside the buffer does not exist (R30). -/
def State.memWrite (s : State) (addr : Nat) (v : CodeUnit) : Except Fault State :=
  if addr < s.cfg.txbufSize then .ok { s with txbuf := Memory.write s.txbuf addr v } else .error (.txbufIndex addr)

/-- The `n` code units from index `start` on, in increasing index (R63). -/
def State.readUnits (s : State) : (start n : Nat) → Except Fault (List CodeUnit)
  | _, 0 => .ok []
  | start, n + 1 =>
    match s.memRead start with
    | .error f => .error f
    | .ok u =>
      match s.readUnits (start + 1) n with
      | .error f => .error f
      | .ok us => .ok (u :: us)

/-- The text the next ENCODE sends: `TXBUF[0]` to `TXBUF[TXLEN − 1]` (R30). -/
def State.readText (s : State) : Except Fault (List CodeUnit) := s.readUnits 0 s.txlen.toNat

/-! ### `LINE` and the traces (R33, R44 to R47, R60) -/

/-- `len(LINE) == LINE_DEPTH`, as 44_waveform.md R192 tests it: never with the unbounded depth. -/
def State.lineFull (s : State) : Bool := s.cfg.lineDepth == some s.line.length

/-- Whether `n` more bits fit in `LINE` (42_encoder.md R139 (b)): always with the unbounded depth. -/
def State.lineRoom (s : State) (n : Nat) : Bool :=
  match s.cfg.lineDepth with
  | none => true
  | some depth => s.line.length + n ≤ depth

/-- `push LINE, b` for each bit in order, each also emitted on `LINEOUT` (R15, R33, R46). -/
def State.pushLine (s : State) (bits : List Bit) : State :=
  { s with line := s.line ++ bits, lineOut := s.lineOut ++ bits }

/-- `Q(v)` for each exact sample in order, with the machine's `Q` (R8, R199). -/
def State.quantise (s : State) (xs : List Sample) : List QSample := xs.map (fun x => ⟨s.cfg.quantiser, x⟩)

/-- `emit SAMP, Q(v)` for each exact sample in order (R44, 44_waveform.md R193). -/
def State.emitSamp (s : State) (xs : List Sample) : State := { s with samp := s.samp ++ s.quantise xs }

/-- `emit RSP` (R47). -/
def State.emitRsp (s : State) (v : Word) : State := { s with rsp := s.rsp ++ [v] }

/-- `emit RXOUT, b` and `rxLog <- rxLog ++ [b]`, when a byte was completed (R45, R162). -/
def State.emitRx (s : State) : Option CodeUnit → State
  | none => s
  | some b => { s with rxOut := s.rxOut ++ [b], rxLog := s.rxLog ++ [b] }

/-! ### The environment's moves (00_scope.md R11, 70_reset_and_hazards.md R250) -/

/-- The host's only move: a command word appended to `CMD` (R11). -/
def hostGive (w : CmdWord) (s : State) : State := { s with cmd := s.cmd ++ [w] }

/-- The reset event, between two commands (R250): every piece of state to its value of R50, the pending command words
dropped, the traces empty; the OPEN parameters stay (R8, notes/assumptions/12.md). -/
def resetEvent (s : State) : State := State.resetWith s.cfg

end Sys2Proof.Machine
end

