-- ==== Sys2Proof/Machine/Encoder.lean ====
section
/-! DEFINITION. FENC, the frame encoder (42_encoder.md): the text buffer's commands and ENCODE, as the pseudocode of R140
computes it. The working registers `frameCnt`, `encOnes` and `encPrev` exist only inside one ENCODE (10_state.md R48): they
are arguments and results of the functions below. The differential stage is the corrected one (R146, C1). -/

namespace Sys2Proof.Machine

/-- `TXCLR` (R136): the text is emptied; the contents of `TXBUF` stay. -/
def execTxclr (s : State) : Host.Outcome State Fault Refusal := .next { s with txlen := 0 }

/-- `TXPUSH unit` (R137): refused with `TXOVF` when `TXLEN == TXBUF_SIZE`, else the unit is written at index `TXLEN`. -/
def execTxpush (u : CodeUnit) (s : State) : Host.Outcome State Fault Refusal :=
  if s.txlen.toNat = s.cfg.txbufSize then .next (s.refuse .txovf)
  else
    match s.memWrite s.txlen.toNat u with
    | .error f => .fault f
    | .ok t => .next { t with txlen := s.txlen + 1 }

/-- The bits one data bit contributes, and `encOnes` after it (R144): the fifth consecutive `1` is followed by a stuffed
`0`, which resets the count; a `0` resets it too. -/
def stuffBit (encOnes : Nat) (b : Bit) : List Bit × Nat :=
  if b then
    if encOnes + 1 = maxOnes then ([true, false], 0) else ([true], encOnes + 1)
  else ([false], 0)

/-- The bits a run of data bits contributes, and `encOnes` after it (R144). -/
def stuffBits : (encOnes : Nat) → List Bit → List Bit × Nat
  | ones, [] => ([], ones)
  | ones, b :: bs =>
    let r := stuffBit ones b
    let q := stuffBits r.2 bs
    (r.1 ++ q.1, q.2)

/-- The bits the code units of one repetition contribute, and `frameCnt` after them (R140 step 2b): each tenth unit counted
is preceded by a raw sync word, which resets both counters (R143). -/
def encodeUnits : (frameCnt encOnes : Nat) → List CodeUnit → List Bit × Nat
  | frameCnt, _, [] => ([], frameCnt)
  | frameCnt, encOnes, u :: us =>
    if frameCnt + 1 = frameSize then
      let r := stuffBits 0 (toBits u).toList
      let q := encodeUnits 0 r.2 us
      (sync ++ r.1 ++ q.1, q.2)
    else
      let r := stuffBits encOnes (toBits u).toList
      let q := encodeUnits (frameCnt + 1) r.2 us
      (r.1 ++ q.1, q.2)

/-- `n` raw sync words (R141, R142). -/
def syncWords (n : Nat) : List Bit := (List.replicate n sync).flatten

/-- `n` repetitions (R140 step 2): a start burst of `START_SYNCS + 1` sync words, then the text with `encOnes` at 0
(R147); `frameCnt` carries over (R147). -/
def encodeRepetitions (text : List CodeUnit) : (n frameCnt : Nat) → List Bit
  | 0, _ => []
  | n + 1, frameCnt =>
    let r := encodeUnits frameCnt 0 text
    syncWords (startSyncs + 1) ++ r.1 ++ encodeRepetitions text n r.2

/-- The end marker (R145): `SYNC`, `SYNC` without its last bit, a `1`. -/
def endMarker : List Bit := sync ++ sync.dropLast ++ [true]

/-- The pre-differential sequence `pre` of R140. -/
def preSequence (p r : Nat) (text : List CodeUnit) : List Bit :=
  syncWords p ++ encodeRepetitions text r 0 ++ endMarker

/-- The differential transform from a line level `encPrev` (R146): each output bit is the input bit XOR the previous
OUTPUT bit. -/
def differential : (encPrev : Bit) → List Bit → List Bit
  | _, [] => []
  | encPrev, b :: bs => (b ^^ encPrev) :: differential (b ^^ encPrev) bs

/-- The line bits of one transmission (R140 step 4): the level starts from 0. -/
def lineBits (p r : Nat) (text : List CodeUnit) : List Bit := differential false (preSequence p r text)

/-- `ENCODE` (R140): refused with `BADARG` when `REPEAT == 0`, then with `LINEOVF` when the whole result does not fit
(R139); else the whole result is appended to `LINE` and `LINEOUT`. -/
def execEncode (s : State) : Host.Outcome State Fault Refusal :=
  if s.params.repeatCount = 0 then .next (s.refuse .badarg)
  else
    match s.readText with
    | .error f => .fault f
    | .ok text =>
      if s.lineRoom (preSequence s.params.preamble.toNat s.params.repeatCount.toNat text).length then
        .next (s.pushLine (lineBits s.params.preamble.toNat s.params.repeatCount.toNat text))
      else .next (s.refuse .lineovf)

end Sys2Proof.Machine
end

