-- ==== Sys2Proof/Machine/FrameDecoder.lean ====
section
/-! DEFINITION. FDEC, the frame decoder (43_decoder.md): one RXBIT is one step of the machine of R162, RXRESET is R180. -/

namespace Sys2Proof.Machine

/-- The desync reset (R166): `shiftBuf`, `lastRaw` and `rxLog` stay. -/
def Decoder.desyncReset (d : Decoder) : Decoder :=
  { d with mode := .waitSync, resumeMode := .waitStart, bitCnt := 0, onesCnt := 0, syncRun := 0 }

/-- The recovered bit (R161). -/
def Decoder.recovered (d : Decoder) (raw : Bit) : Bit := d.lastRaw ^^ raw

/-- The common part of WaitSync, WaitStart and Decode (R164): `bitCnt` up by one (8 until the arm ends), `rec` shifted in
at bit 0, `onesCnt` cleared on 0 and counted up to 7 on 1 (R163). -/
def Decoder.shiftIn (d : Decoder) (recBit : Bit) : Decoder :=
  { d with
    bitCnt := d.bitCnt + 1
    shiftBuf := (d.shiftBuf <<< 1) ||| (BitVec.ofBool recBit).setWidth 8
    onesCnt := if recBit then (if d.onesCnt = 7 then 7 else d.onesCnt + 1) else 0 }

/-- The SkipOne arm (R165). -/
def Decoder.skipOneArm (d : Decoder) (recBit : Bit) : Decoder :=
  if recBit then { d with mode := .skipTwo } else { d with mode := .decode }

/-- The SkipTwo arm (R166). -/
def Decoder.skipTwoArm (d : Decoder) (recBit : Bit) : Decoder :=
  if recBit then d.desyncReset else { d with bitCnt := 0, mode := .decode }

/-- `bitCnt` set back to 0 when it has reached 8. -/
def Decoder.wrapBitCnt (d : Decoder) : Decoder := if d.bitCnt = 8 then { d with bitCnt := 0 } else d

/-- The mode a `resumeMode` stands for (R37). -/
def ResumeMode.toMode : ResumeMode → Mode
  | .waitStart => .waitStart
  | .decode => .decode

/-- The WaitSync arm, after the common part (R167): the pattern is looked for at every bit; `bitCnt` wraps (R163). -/
def Decoder.waitSyncArm (d : Decoder) : Decoder :=
  if d.shiftBuf = syncByte then
    { d with bitCnt := 0, onesCnt := 0, syncRun := 0, mode := d.resumeMode.toMode }
  else d.wrapBitCnt

/-- `syncRun` at a byte boundary of WaitStart (R168), as an exact number. -/
def Decoder.nextSyncRun (d : Decoder) : Nat := if d.shiftBuf = syncByte then d.syncRun.toNat + 1 else 0

/-- The WaitStart arm, after the common part (R168): at a byte boundary the run of sync words is counted, and
`START_SYNCS` of them lock the decoder. -/
def Decoder.waitStartArm (d : Decoder) : Decoder :=
  if d.bitCnt = 8 then
    if startSyncs ≤ d.nextSyncRun then
      { d with bitCnt := 0, onesCnt := 0, syncRun := 0, resumeMode := .decode, mode := .decode }
    else { d with bitCnt := 0, syncRun := BitVec.ofNat 3 d.nextSyncRun }
  else d

/-- The byte that the Decode arm emits, after the common part (R169). -/
def Decoder.completedByte (d : Decoder) : Option CodeUnit :=
  if d.bitCnt = 8 then some (fromBits (toBits d.shiftBuf)) else none

/-- The Decode arm's effect on the registers, after the common part (R169): the byte test and the ones test are
independent. -/
def Decoder.decodeArm (d : Decoder) : Decoder :=
  if d.onesCnt.toNat = maxOnes then { d.wrapBitCnt with onesCnt := 0, mode := .skipOne } else d.wrapBitCnt

/-- One per-bit step (R162): the registers after it and the byte it emits, if any. The arm is chosen by the mode before
the step; step 1 (R161) comes first in every mode. -/
def Decoder.rxStep (d : Decoder) (raw : Bit) : Decoder × Option CodeUnit :=
  let r := d.recovered raw
  let d1 := { d with lastRaw := raw }
  match d.mode with
  | .skipOne => (d1.skipOneArm r, none)
  | .skipTwo => (d1.skipTwoArm r, none)
  | .waitSync => ((d1.shiftIn r).waitSyncArm, none)
  | .waitStart => ((d1.shiftIn r).waitStartArm, none)
  | .decode => ((d1.shiftIn r).decodeArm, (d1.shiftIn r).completedByte)

/-- `RXBIT raw` (R162): never refused, no flag (R179). -/
def execRxbit (raw : Bit) (s : State) : Host.Outcome State Fault Refusal :=
  .next (State.emitRx { s with dec := (s.dec.rxStep raw).1 } (s.dec.rxStep raw).2)

/-- `RXRESET` (R180): every decoder register and `rxLog` to its reset value; `RXOUT` keeps its elements. -/
def execRxreset (s : State) : Host.Outcome State Fault Refusal := .next { s with dec := Decoder.reset, rxLog := [] }

end Sys2Proof.Machine
end

