-- ==== Sys2Proof/Machine/Operands.lean ====
section
/-! DEFINITION. The register operands `x[sel]` of the command set (10_state.md R21): the one read and the one write of the
register file, and the views packed for them. Immediate operands are taken out of the word in Decode.lean (R99). -/

namespace Sys2Proof.Machine

/-- The encoding of `mode` (30_encoding.md R97). -/
def Mode.code : Mode → BitVec 3
  | .waitSync => 0
  | .waitStart => 1
  | .decode => 2
  | .skipOne => 3
  | .skipTwo => 4

/-- The encoding of `resumeMode` (R97). -/
def ResumeMode.code : ResumeMode → BitVec 1
  | .waitStart => 0
  | .decode => 1

/-- `DECSTATE` (R43): 2:0 `mode`, 3 `resumeMode`, 7:4 `bitCnt`, 10:8 `onesCnt`, 13:11 `syncRun`, 14 `lastRaw`, 15 zero,
23:16 `shiftBuf`, 31:24 zero. -/
def Decoder.pack (d : Decoder) : Word :=
  0#8 ++ d.shiftBuf ++ 0#1 ++ BitVec.ofBool d.lastRaw ++ d.syncRun ++ d.onesCnt ++ d.bitCnt ++ d.resumeMode.code
    ++ d.mode.code

/-- `LINELEN`: `min(len(LINE), 2^32 − 1)` (R34). -/
def State.lineLen (s : State) : Word := BitVec.ofNat 32 (min s.line.length (2 ^ 32 - 1))

/-- `x[sel]`, read (R21): `none` for a reserved selector, which holds no state (R213). -/
def State.readReg (s : State) : Sel → Option Word
  | .srate => some s.params.srate
  | .tbps => some s.params.tbps
  | .tcar => some s.params.tcar
  | .repeatCount => some s.params.repeatCount
  | .preamble => some s.params.preamble
  | .gapms => some s.params.gapms
  | .reserved6 | .reserved7 | .reserved15 => none
  | .status => some s.status.pack
  | .psrate => some s.profile.psrate
  | .spb => some s.profile.spb
  | .ppb => some s.profile.ppb
  | .txlen => some s.txlen
  | .linelen => some s.lineLen
  | .decstate => some s.dec.pack

/-- `x[sel] <- v` by `SETP` (R21, 45_host.md R211): `none` for a selector that `SETP` may not write (R213). -/
def State.writeReg (s : State) (sel : Sel) (v : Word) : Option State :=
  match sel with
  | .srate => some { s with params := { s.params with srate := v } }
  | .tbps => some { s with params := { s.params with tbps := v } }
  | .tcar => some { s with params := { s.params with tcar := v } }
  | .repeatCount => some { s with params := { s.params with repeatCount := v } }
  | .preamble => some { s with params := { s.params with preamble := v } }
  | .gapms => some { s with params := { s.params with gapms := v } }
  | .reserved6 | .reserved7 | .reserved15 => none
  | .status | .psrate | .spb | .ppb | .txlen | .linelen | .decstate => none

end Sys2Proof.Machine
end

