-- ==== Sys2Proof/Machine/HostCmd.lean ====
section
/-! DEFINITION. The host commands NOP, SETP, GETP and the reserved opcodes (45_host.md). -/

namespace Sys2Proof.Machine

/-- `NOP` (R210): no state and no trace changes. -/
def execNop (s : State) : Host.Outcome State Fault Refusal := .next s

/-- `SETP sel, data` (R211): a parameter register is written; any other selector is refused with `ILLCMD` (R213 (a)). -/
def execSetp (sel : Sel) (data : Word) (s : State) : Host.Outcome State Fault Refusal :=
  match s.writeReg sel data with
  | some t => .next t
  | none => .next (s.refuse .illcmd)

/-- `GETP sel` (R212): the register's value is appended to `RSP`; a reserved selector sets `ILLCMD` and answers 0
(R213 (b)). The value is the one before this command. -/
def execGetp (sel : Sel) (s : State) : Host.Outcome State Fault Refusal :=
  match s.readReg sel with
  | some v => .next (s.emitRsp v)
  | none => .next ((s.refuse .illcmd).emitRsp 0)

/-- A reserved opcode: `ILLCMD` is set, nothing else changes, nothing is emitted (R214). -/
def illegalCommand (s : State) : Host.Outcome State Fault Refusal := .next (s.refuse .illcmd)

/-- Reserved opcode `0xC` (R214). -/
def execReservedC (s : State) : Host.Outcome State Fault Refusal := illegalCommand s

/-- Reserved opcode `0xD` (R214). -/
def execReservedD (s : State) : Host.Outcome State Fault Refusal := illegalCommand s

/-- Reserved opcode `0xE` (R214). -/
def execReservedE (s : State) : Host.Outcome State Fault Refusal := illegalCommand s

/-- Reserved opcode `0xF` (R214). -/
def execReservedF (s : State) : Host.Outcome State Fault Refusal := illegalCommand s

end Sys2Proof.Machine
end

