-- ==== Sys2Proof/Machine/Profile.lean ====
section
/-! DEFINITION. MPL, the modulation-profile derivation (40_profile.md), and the exact views of a profile (10_state.md R25).
All arithmetic is on natural numbers, so that no product is truncated (R111). -/

namespace Sys2Proof.Machine

/-- `samplesPerBit = floor(sampleRateHz / targetBitsPerSecond)` (R112); used only with `tb ≠ 0`. -/
def samplesPerBit (sr tb : Nat) : Nat := sr / tb

/-- `periodsPerBit = floor(targetCarrierHz / (sr / spb))`, computed as `(tc × spb) div sr` (R111, R112); used only with
`sr ≠ 0`. -/
def periodsPerBit (sr tc spb : Nat) : Nat := tc * spb / sr

/-- The pair (`SPB`, `PPB`) of a rate combination, or `none` for ConfigurationError, tested in the order (c), (a), (b) of
R113. -/
def deriveProfile (sr tb tc : Nat) : Option (Nat × Nat) :=
  if tb = 0 then none
  else if samplesPerBit sr tb < 1 then none
  else if periodsPerBit sr tc (samplesPerBit sr tb) < 1 then none
  else some (samplesPerBit sr tb, periodsPerBit sr tc (samplesPerBit sr tb))

/-- A profile stored: all four items in one step (R24), and `CFGERR` cleared (R112). -/
def State.storeProfile (s : State) (spb ppb : Nat) : State :=
  { s with
    status := { s.status with pvalid := true, cfgerr := false }
    profile := { psrate := s.params.srate, spb := BitVec.ofNat 32 spb, ppb := BitVec.ofNat 32 ppb } }

/-- `DERIVE` (R112); a failure is the ConfigurationError of R113 with the effect of R114. -/
def execDerive (s : State) : Host.Outcome State Fault Refusal :=
  match deriveProfile s.params.srate.toNat s.params.tbps.toNat s.params.tcar.toNat with
  | none => .next s.configurationError
  | some (spb, ppb) => .next (s.storeProfile spb ppb)

/-! ### Views of the profile (R25), defined only while `PVALID == 1`; no command reads them -/

/-- `ABPS = PSRATE / SPB`, the actual bit rate, exact. -/
def State.abps (s : State) : Option ℚ :=
  if s.status.pvalid then some ((s.profile.psrate.toNat : ℚ) / s.profile.spb.toNat) else none

/-- `ACAR = PPB × PSRATE / SPB`, the actual carrier, exact. -/
def State.acar (s : State) : Option ℚ :=
  if s.status.pvalid then some ((s.profile.ppb.toNat : ℚ) * s.profile.psrate.toNat / s.profile.spb.toNat) else none

/-- `OMEGA = 2π × PPB / SPB`, radians per sample. -/
noncomputable def State.omega (s : State) : Option ℝ :=
  if s.status.pvalid then some (2 * Real.pi * s.profile.ppb.toNat / s.profile.spb.toNat) else none

end Sys2Proof.Machine
end

