-- ==== Sys2Proof/Machine/Waveform.lean ====
section
/-! DEFINITION. WGEN, the waveform generator (44_waveform.md): LINECLR, LINEPUSH, SYNTH, and the real values of the samples
on `SAMP`. The phase accumulator exists only inside one SYNTH (10_state.md R48): it is an argument and a result below. -/

namespace Sys2Proof.Machine

/-- `LINECLR` (R191): `LINEOUT` keeps everything already emitted. -/
def execLineclr (s : State) : Host.Outcome State Fault Refusal := .next { s with line := [] }

/-- `LINEPUSH b` (R192): the bit goes in as given; refused with `LINEOVF` when `LINE` is full. -/
def execLinepush (b : Bit) (s : State) : Host.Outcome State Fault Refusal :=
  if s.lineFull then .next (s.refuse .lineovf) else .next (s.pushLine [b])

/-- The gap length `g` (R193, R196): `PSRATE × GAPMS / 1000` rounded to the nearest integer, a tie to the even one,
computed exactly. -/
def gapSamples (psrate gapms : Nat) : Nat :=
  let n := psrate * gapms
  let g := n / 1000
  if n % 1000 > 500 ∨ (n % 1000 = 500 ∧ g % 2 = 1) then g + 1 else g

/-- The samples of one symbol held for `count` samples from `phaseAcc` on, and `phaseAcc` after them (R193 to R195). -/
def holdSymbol (spb ppb : Nat) (sym : Bit) : (count phaseAcc : Nat) → List Sample × Nat
  | 0, acc => ([], acc)
  | k + 1, acc =>
    let r := holdSymbol spb ppb sym k ((acc + ppb) % spb)
    (.carrier sym acc spb :: r.1, r.2)

/-- The signal part for the bits of `LINE`, `SPB` samples each, the phase running on across bits (R193, R195). -/
def signalSamples (spb ppb : Nat) : (phaseAcc : Nat) → List Bit → List Sample
  | _, [] => []
  | acc, b :: bs =>
    let r := holdSymbol spb ppb b spb acc
    r.1 ++ signalSamples spb ppb r.2 bs

/-- Everything one SYNTH emits, before `Q`: leading gap, signal from phase 0, trailing gap of the same length (R193, R196). -/
def synthSamples (p : Profile) (gapms : Word) (bits : List Bit) : List Sample :=
  let gap := List.replicate (gapSamples p.psrate.toNat gapms.toNat) Sample.gap
  gap ++ signalSamples p.spb.toNat p.ppb.toNat 0 bits ++ gap

/-- `SYNTH` (R193): refused with `NOPROF` when there is no profile, and `LINE` keeps its bits (R202); else `LINE` is
drained into `SAMP`. -/
def execSynth (s : State) : Host.Outcome State Fault Refusal :=
  if s.status.pvalid then
    .next (State.emitSamp { s with line := [] } (synthSamples s.profile s.params.gapms s.line))
  else .next (s.refuse .noprof)

/-! ### The real values on `SAMP` -/

/-- The bipolar symbol of a bit (R194). -/
noncomputable def symbolValue (sym : Bit) : ℝ := if sym then 1 else -1

/-- The exact real value of a sample before `Q` (R193, R195, R196). -/
noncomputable def Sample.value : Sample → ℝ
  | .gap => 0
  | .carrier sym phaseAcc spb => symbolValue sym * Real.cos (2 * Real.pi * phaseAcc / spb)

/-- `Q(v)`, the real value of an element of `SAMP` (R44, R199). -/
noncomputable def QSample.value (e : QSample) : ℝ := e.quantiser.apply e.exact.value

/-- What a reader of the trace `SAMP` sees (R44). -/
noncomputable def State.sampValues (s : State) : List ℝ := s.samp.map QSample.value

end Sys2Proof.Machine
end

