-- ==== Sys2Proof/Machine/Dispatch.lean ====
section
/-! DEFINITION. One arm per constructor of Instr (30_encoding.md R94). -/

namespace Sys2Proof.Machine

def exec (i : Instr) (s : State) : Host.Outcome State Fault Refusal :=
  match i with
  | .nop => Sys2Proof.Machine.execNop s
  | .setp sel data => Sys2Proof.Machine.execSetp sel data s
  | .getp sel => Sys2Proof.Machine.execGetp sel s
  | .derive => Sys2Proof.Machine.execDerive s
  | .txclr => Sys2Proof.Machine.execTxclr s
  | .txpush u => Sys2Proof.Machine.execTxpush u s
  | .encode => Sys2Proof.Machine.execEncode s
  | .lineclr => Sys2Proof.Machine.execLineclr s
  | .linepush b => Sys2Proof.Machine.execLinepush b s
  | .synth => Sys2Proof.Machine.execSynth s
  | .rxbit raw => Sys2Proof.Machine.execRxbit raw s
  | .rxreset => Sys2Proof.Machine.execRxreset s
  | .reservedC => Sys2Proof.Machine.execReservedC s
  | .reservedD => Sys2Proof.Machine.execReservedD s
  | .reservedE => Sys2Proof.Machine.execReservedE s
  | .reservedF => Sys2Proof.Machine.execReservedF s

end Sys2Proof.Machine
end

