-- ==== Sys2Proof/Machine/Step.lean ====
section
/-! DEFINITION. One step (00_scope.md R10): the command word at the head of `CMD` is taken, decoded and executed. -/

namespace Sys2Proof.Machine

/-- One step. With `CMD` empty the BFC does nothing until a command word arrives (70_reset_and_hazards.md R250): the step
then answers the same state (notes/assumptions/1.md). -/
def step (s : State) : Host.Outcome State Fault Refusal :=
  match s.cmd with
  | [] => .next s
  | w :: rest => exec (decode w) { s with cmd := rest }

/-- `s` with the command word whose low `nbits` bits are `w` standing at the head of `CMD`, before every word already
pending, so that the next step takes exactly it (notes/assumptions/2.md). -/
def State.withFetchWord (s : State) (nbits w : Nat) : State := { s with cmd := tableWord nbits w :: s.cmd }

end Sys2Proof.Machine
end

