-- ==== Sys2Proof/Machine/Format.lean ====
section
/-! DEFINITION. The line format of 30_encoding.md Part A as a format: what a transmission IS, written from R80 to R90 and
not from the procedure of R140. ENCODE and SYNTH (Machine/Encoder.lean, Machine/Waveform.lean) are the procedures; the
statements say that they produce this. No meaning calls this file. -/

namespace Sys2Proof.Machine

/-- `SYNC * n` (R13, R83). -/
def formatSyncs (n : Nat) : List Bit := (List.replicate n [false, true, true, true, true, true, true, false]).flatten

/-- The bits of code units in order, each bit 7 first (R82). -/
def formatUnitBits (us : List CodeUnit) : List Bit :=
  us.flatMap (fun u => [u.getLsbD 7, u.getLsbD 6, u.getLsbD 5, u.getLsbD 4, u.getLsbD 3, u.getLsbD 2, u.getLsbD 1,
    u.getLsbD 0])

/-- Bit stuffing of a stretch of payload that begins with the ones count at 0 (R87): a `0` after every five consecutive
`1`s, counted anew after it. -/
def formatStuff : List Bit → List Bit
  | true :: true :: true :: true :: true :: rest => [true, true, true, true, true, false] ++ formatStuff rest
  | b :: rest => b :: formatStuff rest
  | [] => []

/-- `payload(k)` when `before` code units of this ENCODE come before it (R86, R87): a raw sync word stands immediately
before the code units number 10, 20, 30, … counted across all repetitions, so the stretch before the first sync word has
the units up to the next number that is 9 modulo 10, and every later stretch has ten. Each stretch is stuffed on its own,
since the count is 0 after a raw sync word. -/
def formatPayload (before : Nat) (text : List CodeUnit) : List Bit :=
  formatStuff (formatUnitBits (text.take (9 - before % 10))) ++
    (List.range ((text.length - (9 - before % 10) + 9) / 10)).flatMap (fun j =>
      formatSyncs 1 ++ formatStuff (formatUnitBits ((text.drop (9 - before % 10 + 10 * j)).take 10)))

/-- `END` (R88): `0111111001111111`. -/
def formatEnd : List Bit :=
  [false, true, true, true, true, true, true, false, false, true, true, true, true, true, true, true]

/-- The pre-differential sequence of a transmission (R83): `SYNC * P ++ rep(1) ++ … ++ rep(R) ++ END` with
`rep(k) = SYNC * 6 ++ payload(k)`. -/
def formatPre (p r : Nat) (text : List CodeUnit) : List Bit :=
  formatSyncs p ++
    (List.range r).flatMap (fun k => formatSyncs 6 ++ formatPayload (k * text.length) text) ++ formatEnd

/-- The differential line code (R89, R146): line bit `n` is the parity of the pre-differential bits 0 to `n`. -/
def formatLine (pre : List Bit) : List Bit :=
  (List.range pre.length).map (fun n => (pre.take (n + 1)).count true % 2 == 1)

/-- The signal part of a waveform (R90, R195): sample number `i` belongs to bit number `i div SPB`, at phase accumulator
`(PPB × i) mod SPB`. -/
def formatSignal (spb ppb : Nat) (bits : List Bit) : List Sample :=
  (List.range (bits.length * spb)).map (fun i => .carrier (bits.getD (i / spb) false) (ppb * i % spb) spb)

end Sys2Proof.Machine
end

