-- ==== Sys2Proof/Machine/Pseudo.lean ====
section
/-! DEFINITION. The pseudo-instructions of 30_encoding.md Part C: sequences of commands that reproduce the source's four
operations, and the execution of a sequence. -/

namespace Sys2Proof.Machine

/-- Instructions executed one after the other (20_memory.md R71), stopping at the first that does not answer a next
state. -/
def execAll : List Instr → State → Host.Outcome State Fault Refusal
  | [], s => .next s
  | i :: is, s =>
    match exec i s with
    | .next t => execAll is t
    | .fault f => .fault f
    | .refused r => .refused r

/-- `derive(sr, tb, tc)` (R102). -/
def pseudoDerive (sr tb tc : Word) : List Instr := [.setp .srate sr, .setp .tbps tb, .setp .tcar tc, .derive]

/-- `encode(text, r, p)` (R103). -/
def pseudoEncode (text : List CodeUnit) (r p : Word) : List Instr :=
  .txclr :: text.map .txpush ++ [.setp .repeatCount r, .setp .preamble p, .encode]

/-- `decode(bits, reset)` (R104): `RXRESET` if `reset` is true, then one `RXBIT` per bit. -/
def pseudoDecode (bits : List Bit) (reset : Bool) : List Instr :=
  (if reset then [.rxreset] else []) ++ bits.map .rxbit

/-- `synthesize(bits, profile, gap)` (R105), with the current profile. -/
def pseudoSynthesize (bits : List Bit) (gap : Word) : List Instr :=
  .lineclr :: bits.map .linepush ++ [.setp .gapms gap, .synth]

end Sys2Proof.Machine
end

