-- ==== Sys2Proof/Safety.lean ====
section
/-! DEFINITION. What holds between the commands of every run (10_state.md, 43_decoder.md R176), and what a safe step is. -/

namespace Sys2Proof.Machine

/-- `TXLEN` counts units inside the buffer (R30), and `TXBUF` is in canonical form with no cell outside the buffer. -/
def State.txInv (s : State) : Prop :=
  s.txlen.toNat ≤ s.cfg.txbufSize ∧ Memory.wf s.txbuf ∧ ∀ c ∈ s.txbuf, c.1 < s.cfg.txbufSize

/-- `LINE` is within its capacity (R33, R139, R192), and holds the last bits that went out on `LINEOUT` (R33). -/
def State.lineInv (s : State) : Prop :=
  (∀ depth, s.cfg.lineDepth = some depth → s.line.length ≤ depth) ∧ s.line <:+ s.lineOut

/-- `PVALID` and `CFGERR` are never both 1 (R23); the profile registers are at least 1 while `PVALID` is 1 and 0 while it
is 0 (R24). -/
def State.profileInv (s : State) : Prop :=
  ¬(s.status.pvalid = true ∧ s.status.cfgerr = true) ∧
  (s.status.pvalid = true → 1 ≤ s.profile.psrate.toNat ∧ 1 ≤ s.profile.spb.toNat ∧ 1 ≤ s.profile.ppb.toNat) ∧
  (s.status.pvalid = false → s.profile.psrate = 0 ∧ s.profile.spb = 0 ∧ s.profile.ppb = 0)

/-- The invariants (b) to (e) of R176; (a) holds by the type of `mode`. -/
def Decoder.inv (d : Decoder) : Prop :=
  d.bitCnt.toNat ≤ 7 ∧
  d.syncRun.toNat ≤ 4 ∧
  (d.mode ≠ .waitStart → d.syncRun = 0) ∧
  (d.mode = .decode → d.onesCnt.toNat ≤ 4) ∧
  (d.mode = .skipOne ∨ d.mode = .skipTwo → d.onesCnt = 0) ∧
  (d.resumeMode = .decode ↔ d.mode = .decode ∨ d.mode = .skipOne ∨ d.mode = .skipTwo)

/-- `rxLog` holds the last bytes that went out on `RXOUT` (R45), and every element of `SAMP` was passed through the machine's
one quantiser `Q` (R44, R8). -/
def State.traceInv (s : State) : Prop := s.rxLog <:+ s.rxOut ∧ ∀ e ∈ s.samp, e.quantiser = s.cfg.quantiser

/-- Everything that holds between the commands of every run. -/
structure Inv (s : State) : Prop where
  cfg : s.cfg.wf
  tx : s.txInv
  line : s.lineInv
  profile : s.profileInv
  dec : s.dec.inv
  trace : s.traceInv

/-- A step is safe when it answers a next state (00_scope.md R16: "No command can leave the BFC stuck"). -/
def SafeStep (s : State) : Prop := ∃ t, step s = .next t

/-- The commands of the frame decoder: only these write its registers (10_state.md R35). -/
def decoderCommand : Instr → Bool
  | .rxbit _ | .rxreset => true
  | .nop | .setp _ _ | .getp _ | .derive | .txclr | .txpush _ | .encode | .lineclr | .linepush _ | .synth => false
  | .reservedC | .reservedD | .reservedE | .reservedF => false

end Sys2Proof.Machine
end

