-- ==== Sys2Proof/Certificates/Slice0/Obligations.lean ====
section
/-! DEFINITION. The statements for the provers, each `def Obligations.<Name> : Prop`. A docstring names the rule of spec/ that
a statement formalises; "derived" statements say what they rest on. A command that the spec calls refused (00_scope.md R16) is
a NEXT state of the model with a flag set. -/

open Sys2Proof Sys2Proof.Machine

/-! ### Encoding of command words (30_encoding.md Part B) -/

/-- Derived from R93 to R101: decoding and encoding agree. Every instruction, with every operand at every value, is what the
decoder reads from its canonical word. -/
def Obligations.DecodeOfEncodeIsIdentity : Prop :=
  ∀ i : Instr, decode (encode i) = i

/-- R101: the canonical words as numbers, with unused fields zero, and the rule's own examples. -/
def Obligations.CanonicalWordsAreThoseOfTheManual : Prop :=
  (encode .nop).toNat = 0x0000000000 ∧
  (∀ sel data, (encode (.setp sel data)).toNat = 0x1000000000 + (selCode sel).toNat * 2 ^ 32 + data.toNat) ∧
  (∀ sel, (encode (.getp sel)).toNat = 0x2000000000 + (selCode sel).toNat * 2 ^ 32) ∧
  (encode .derive).toNat = 0x3000000000 ∧
  (encode .txclr).toNat = 0x4000000000 ∧
  (∀ u, (encode (.txpush u)).toNat = 0x5000000000 + u.toNat) ∧
  (encode .encode).toNat = 0x6000000000 ∧
  (encode .lineclr).toNat = 0x7000000000 ∧
  (∀ b, (encode (.linepush b)).toNat = 0x8000000000 + b.toNat) ∧
  (encode .synth).toNat = 0x9000000000 ∧
  (∀ b, (encode (.rxbit b)).toNat = 0xA000000000 + b.toNat) ∧
  (encode .rxreset).toNat = 0xB000000000 ∧
  (encode (.setp .preamble 2)).toNat = 0x1400000002 ∧
  (encode (.txpush 0x48)).toNat = 0x5000000048 ∧
  (encode (.getp .decstate)).toNat = 0x2E00000000 ∧
  (encode (.rxbit true)).toNat = 0xA000000001

/-- R95: every word selects exactly one row of the opcode map, by its `op` field alone; the reserved rows set `ILLCMD` and do
nothing else. -/
def Obligations.EveryWordSelectsExactlyOneRow : Prop :=
  (∀ w : CmdWord, ∃ r ∈ opcodeTable,
    r.selects w = true ∧ r.mnemonic = mnemonic (decode w) ∧ ∀ r' ∈ opcodeTable, r'.selects w = true → r' = r) ∧
  (∀ w w' : CmdWord, cmdOp w = cmdOp w' → mnemonic (decode w) = mnemonic (decode w')) ∧
  (∀ w : CmdWord, 0xC ≤ (cmdOp w).toNat → ∀ s : State,
    exec (decode w) s = .next { s with status := { s.status with illcmd := true } })

/-- R96: fields that an operation does not use do not change what it does, so no flag either; the canonical word has zeros
there. -/
def Obligations.UnusedFieldsAreIgnored : Prop :=
  (∀ w w' : CmdWord, cmdOp w = cmdOp w' →
    (cmdOp w = 0x1 → cmdSel w = cmdSel w' ∧ cmdData w = cmdData w') →
    (cmdOp w = 0x2 → cmdSel w = cmdSel w') →
    (cmdOp w = 0x5 → (cmdData w).extractLsb' 0 8 = (cmdData w').extractLsb' 0 8) →
    (cmdOp w = 0x8 ∨ cmdOp w = 0xA → (cmdData w).getLsbD 0 = (cmdData w').getLsbD 0) →
    decode w = decode w' ∧
      ∀ (s : State) (rest : List CmdWord), step { s with cmd := w :: rest } = step { s with cmd := w' :: rest }) ∧
  (∀ i : Instr,
    (cmdOp (encode i) ≠ 0x1 → cmdOp (encode i) ≠ 0x2 → cmdSel (encode i) = 0) ∧
    (cmdOp (encode i) = 0x5 → (cmdData (encode i)).toNat < 256) ∧
    (cmdOp (encode i) = 0x8 ∨ cmdOp (encode i) = 0xA → (cmdData (encode i)).toNat < 2) ∧
    (cmdOp (encode i) ≠ 0x1 → cmdOp (encode i) ≠ 0x5 → cmdOp (encode i) ≠ 0x8 → cmdOp (encode i) ≠ 0xA →
      cmdData (encode i) = 0))

/-- R98: the numbers of the selectors. -/
def Obligations.SelectorNumbersAreThoseOfTheManual : Prop :=
  selOfCode 0 = .srate ∧ selOfCode 1 = .tbps ∧ selOfCode 2 = .tcar ∧ selOfCode 3 = .repeatCount ∧
  selOfCode 4 = .preamble ∧ selOfCode 5 = .gapms ∧ selOfCode 8 = .status ∧ selOfCode 9 = .psrate ∧
  selOfCode 10 = .spb ∧ selOfCode 11 = .ppb ∧ selOfCode 12 = .txlen ∧ selOfCode 13 = .linelen ∧
  selOfCode 14 = .decstate ∧ selOfCode 6 = .reserved6 ∧ selOfCode 7 = .reserved7 ∧ selOfCode 15 = .reserved15

/-- R99: `SETP` takes `data` whole, `TXPUSH` takes `data[7:0]`, `LINEPUSH` and `RXBIT` take `data[0]`. -/
def Obligations.ImmediatesAreTakenUnsignedFromData : Prop :=
  ∀ w : CmdWord,
    (cmdOp w = 0x1 → decode w = .setp (selOfCode (w.extractLsb' 32 4)) (w.extractLsb' 0 32)) ∧
    (cmdOp w = 0x5 → decode w = .txpush (w.extractLsb' 0 8)) ∧
    (cmdOp w = 0x8 → decode w = .linepush (w.getLsbD 0)) ∧
    (cmdOp w = 0xA → decode w = .rxbit (w.getLsbD 0))

/-- A sanity statement over words written out from R93 and R94: one word per unit. -/
def Obligations.WrittenWordsDecodeToTheirInstructions : Prop :=
  decode 0x110000012C = .setp .tbps 300 ∧
  decode 0x2E00000000 = .getp .decstate ∧
  decode 0x3FFFFFFFFF = .derive ∧
  decode 0x50000001FF = .txpush 0xFF ∧
  decode 0x8000000001 = .linepush true ∧
  decode 0xA5FFFFFFFE = .rxbit false ∧
  decode 0xC000000000 = .reservedC

/-! ### The step and the command stream (00_scope.md section 4) -/

/-- Derived from R10: the word at the head of `CMD` is taken, decoded and executed. That a step with an empty `CMD` answers
the same state is the model's choice (notes/assumptions/1.md), from R250's "after reset the BFC does nothing until the first
command word arrives". -/
def Obligations.StepRunsTheDecodedInstruction : Prop :=
  (∀ (s : State) (w : CmdWord) (rest : List CmdWord) (i : Instr), s.cmd = w :: rest → decode w = i →
    step s = exec i { s with cmd := rest }) ∧
  (∀ s : State, s.cmd = [] → step s = .next s)

/-- Derived from R10 and R71: a step takes exactly one word off the stream, and words the host appends meanwhile change
nothing of what the step does. -/
def Obligations.CommandsAreTakenInStreamOrder : Prop :=
  ∀ (s t : State) (w : CmdWord) (rest : List CmdWord), s.cmd = w :: rest → step s = .next t →
    t.cmd = rest ∧ ∀ w' : CmdWord, step (hostGive w' s) = .next (hostGive w' t)

/-! ### Reset and the invariants -/

/-- R50: the value of every piece of state after reset; `TXBUF` is unspecified there and not named here. Beside R50's table:
`CMD` is empty after reset, as R250 takes it to be, and the OPEN parameters are those fixed before reset (R8). -/
def Obligations.ResetLeavesTheManualsValues : Prop :=
  ∀ s : State,
    (resetEvent s).params.srate = 16000 ∧ (resetEvent s).params.tbps = 50 ∧ (resetEvent s).params.tcar = 2000 ∧
    (resetEvent s).params.repeatCount = 1 ∧ (resetEvent s).params.preamble = 0 ∧ (resetEvent s).params.gapms = 0 ∧
    (resetEvent s).status.pvalid = false ∧ (resetEvent s).status.cfgerr = false ∧
    (resetEvent s).status.txovf = false ∧ (resetEvent s).status.badarg = false ∧
    (resetEvent s).status.noprof = false ∧ (resetEvent s).status.illcmd = false ∧
    (resetEvent s).status.lineovf = false ∧
    (resetEvent s).profile.psrate = 0 ∧ (resetEvent s).profile.spb = 0 ∧ (resetEvent s).profile.ppb = 0 ∧
    (resetEvent s).txlen = 0 ∧ (resetEvent s).line = [] ∧
    (resetEvent s).dec.mode = .waitSync ∧ (resetEvent s).dec.resumeMode = .waitStart ∧
    (resetEvent s).dec.bitCnt = 0 ∧ (resetEvent s).dec.onesCnt = 0 ∧ (resetEvent s).dec.syncRun = 0 ∧
    (resetEvent s).dec.shiftBuf = 0x00 ∧ (resetEvent s).dec.lastRaw = false ∧
    (resetEvent s).rxLog = [] ∧ (resetEvent s).rxOut = [] ∧ (resetEvent s).lineOut = [] ∧
    (resetEvent s).samp = [] ∧ (resetEvent s).rsp = [] ∧
    (resetEvent s).cmd = [] ∧ (resetEvent s).cfg = s.cfg

/-- Derived: the state after reset, for every legal value of the OPEN parameters and in particular for the model's reset
state, satisfies the invariant of Safety.lean. -/
def Obligations.ResetSatisfiesTheInvariant : Prop :=
  (∀ c : Config, c.wf → Inv (State.resetWith c)) ∧ Inv State.reset

/-- Derived from R23, R24, R30, R33, R44, R45 and R176: what Safety.lean's `Inv` says holds between the commands of every run
(`TXLEN` inside the buffer and `TXBUF` in canonical form, `LINE` within `LINE_DEPTH` and a suffix of `LINEOUT`, `PVALID` and
`CFGERR` never both 1 and the profile registers at least 1 or all 0, the decoder's counters and modes as R176, `rxLog` a
suffix of `RXOUT`, every element of `SAMP` quantised by the machine's `Q`) is kept by every step from every state. -/
def Obligations.EveryStepKeepsTheInvariant : Prop :=
  ∀ s t : State, Inv s → step s = .next t → Inv t

/-- Derived from R16, "No command can leave the BFC stuck, no command is undefined": from every state with the invariant,
every step answers a next state, so the model's one fault is never taken. -/
def Obligations.EveryStepFromTheInvariantCompletes : Prop :=
  ∀ s : State, Inv s → SafeStep s

/-! ### Host commands (45_host.md) -/

/-- R210: `NOP` is the word with `op` 0, its canonical word is zero, and nothing changes. -/
def Obligations.NopChangesNothing : Prop :=
  (∀ w : CmdWord, cmdOp w = 0x0 → decode w = .nop) ∧ encode .nop = 0x0000000000 ∧
  ∀ s : State, exec .nop s = .next s

/-- R211: selectors 0 to 5 are written with all 32 bits and nothing else changes; any other selector sets `ILLCMD` and
nothing else changes. -/
def Obligations.SetpWritesTheParameterRegister : Prop :=
  (∀ w : CmdWord, cmdOp w = 0x1 → decode w = .setp (selOfCode (cmdSel w)) (cmdData w)) ∧
  (∀ sel data, (encode (.setp sel data)).toNat = 0x1000000000 + (selCode sel).toNat * 2 ^ 32 + data.toNat) ∧
  ∀ (s : State) (v : Word),
    exec (.setp .srate v) s = .next { s with params := { s.params with srate := v } } ∧
    exec (.setp .tbps v) s = .next { s with params := { s.params with tbps := v } } ∧
    exec (.setp .tcar v) s = .next { s with params := { s.params with tcar := v } } ∧
    exec (.setp .repeatCount v) s = .next { s with params := { s.params with repeatCount := v } } ∧
    exec (.setp .preamble v) s = .next { s with params := { s.params with preamble := v } } ∧
    exec (.setp .gapms v) s = .next { s with params := { s.params with gapms := v } } ∧
    ∀ sel : Sel, 6 ≤ (selCode sel).toNat →
      exec (.setp sel v) s = .next { s with status := { s.status with illcmd := true } }

/-- R212 with the view of R34: `GETP` appends exactly one word to `RSP` and changes nothing else, but for the `ILLCMD` of a
reserved selector, which answers 0. -/
def Obligations.GetpAppendsTheSelectedWord : Prop :=
  (∀ w : CmdWord, cmdOp w = 0x2 → decode w = .getp (selOfCode (cmdSel w))) ∧
  (∀ sel, (encode (.getp sel)).toNat = 0x2000000000 + (selCode sel).toNat * 2 ^ 32) ∧
  ∀ s : State,
    exec (.getp .srate) s = .next { s with rsp := s.rsp ++ [s.params.srate] } ∧
    exec (.getp .tbps) s = .next { s with rsp := s.rsp ++ [s.params.tbps] } ∧
    exec (.getp .tcar) s = .next { s with rsp := s.rsp ++ [s.params.tcar] } ∧
    exec (.getp .repeatCount) s = .next { s with rsp := s.rsp ++ [s.params.repeatCount] } ∧
    exec (.getp .preamble) s = .next { s with rsp := s.rsp ++ [s.params.preamble] } ∧
    exec (.getp .gapms) s = .next { s with rsp := s.rsp ++ [s.params.gapms] } ∧
    exec (.getp .status) s = .next { s with rsp := s.rsp ++ [s.status.pack] } ∧
    exec (.getp .psrate) s = .next { s with rsp := s.rsp ++ [s.profile.psrate] } ∧
    exec (.getp .spb) s = .next { s with rsp := s.rsp ++ [s.profile.spb] } ∧
    exec (.getp .ppb) s = .next { s with rsp := s.rsp ++ [s.profile.ppb] } ∧
    exec (.getp .txlen) s = .next { s with rsp := s.rsp ++ [s.txlen] } ∧
    exec (.getp .linelen) s =
      .next { s with rsp := s.rsp ++ [if s.line.length ≤ 2 ^ 32 - 1 then BitVec.ofNat 32 s.line.length
                                      else 0xFFFFFFFF] } ∧
    exec (.getp .decstate) s = .next { s with rsp := s.rsp ++ [s.dec.pack] } ∧
    ∀ sel : Sel, sel = .reserved6 ∨ sel = .reserved7 ∨ sel = .reserved15 →
      exec (.getp sel) s = .next { s with status := { s.status with illcmd := true }, rsp := s.rsp ++ [0] }

/-- R43, the modes numbered as in R97: the places of the decoder registers in `DECSTATE`. -/
def Obligations.DecstatePacksTheDecoderRegisters : Prop :=
  ∀ d : Decoder,
    d.pack.extractLsb' 0 3 =
      (match d.mode with
        | .waitSync => 0#3
        | .waitStart => 1#3
        | .decode => 2#3
        | .skipOne => 3#3
        | .skipTwo => 4#3) ∧
    d.pack.getLsbD 3 = (match d.resumeMode with | .waitStart => false | .decode => true) ∧
    d.pack.extractLsb' 4 4 = d.bitCnt ∧
    d.pack.extractLsb' 8 3 = d.onesCnt ∧
    d.pack.extractLsb' 11 3 = d.syncRun ∧
    d.pack.getLsbD 14 = d.lastRaw ∧
    d.pack.getLsbD 15 = false ∧
    d.pack.extractLsb' 16 8 = d.shiftBuf ∧
    d.pack.extractLsb' 24 8 = 0#8

/-- Derived from the first table of R23: bit 0 `PVALID`, 1 `CFGERR`, 2 `TXOVF`, 3 `BADARG`, 4 `NOPROF`, 5 `ILLCMD`,
6 `LINEOVF`, bits 31 to 7 zero. -/
def Obligations.StatusPacksTheFlags : Prop :=
  ∀ st : Status, st.pack.toNat = st.pvalid.toNat + 2 * st.cfgerr.toNat + 4 * st.txovf.toNat + 8 * st.badarg.toNat
    + 16 * st.noprof.toNat + 32 * st.illcmd.toNat + 64 * st.lineovf.toNat

/-- R214: a word with `op` from `0xC` to `0xF` sets `ILLCMD`; nothing else changes and nothing is emitted. -/
def Obligations.ReservedOpcodesOnlySetIllcmd : Prop :=
  (∀ w : CmdWord, (cmdOp w = 0xC → decode w = .reservedC) ∧ (cmdOp w = 0xD → decode w = .reservedD) ∧
    (cmdOp w = 0xE → decode w = .reservedE) ∧ (cmdOp w = 0xF → decode w = .reservedF)) ∧
  ∀ s : State,
    exec .reservedC s = .next { s with status := { s.status with illcmd := true } } ∧
    exec .reservedD s = .next { s with status := { s.status with illcmd := true } } ∧
    exec .reservedE s = .next { s with status := { s.status with illcmd := true } } ∧
    exec .reservedF s = .next { s with status := { s.status with illcmd := true } }

/-- Derived from R22, "every value from 0 to 2^32 − 1 can be written and is read back unchanged": `GETP` after `SETP` of the
same parameter register answers the value, and `GETP` of any other selector answers what it would have answered before the
`SETP`. -/
def Obligations.WrittenParameterIsReadBack : Prop :=
  ∀ (s : State) (sel sel' : Sel) (v : Word), sel.writable = true →
    ∃ t, exec (.setp sel v) s = .next t ∧
      exec (.getp sel) t = .next { t with rsp := s.rsp ++ [v] } ∧
      (sel' ≠ sel → ∀ u, exec (.getp sel') s = .next u → ∃ u', exec (.getp sel') t = .next u' ∧ u'.rsp = u.rsp)

/-! ### MPL (40_profile.md) -/

/-- R112, R113, R114: the profile that `DERIVE` stores, with no product or quotient truncated and `PPB` the floor of the
carrier over the actual bit rate, the actual rates and the angular frequency of that profile, and the three cases of
ConfigurationError with their effect; no other command touches `CFGERR`. -/
def Obligations.DeriveStoresTheProfileOrFails : Prop :=
  (∀ w : CmdWord, cmdOp w = 0x3 → decode w = .derive) ∧ encode .derive = 0x3000000000 ∧
  (∀ (s : State) (sr tb tc : Nat), s.params.srate.toNat = sr → s.params.tbps.toNat = tb → s.params.tcar.toNat = tc →
    (1 ≤ tb → tb ≤ sr → sr ≤ tc * (sr / tb) →
      ∃ (spb ppb : Word) (t : State) (a c : ℚ), spb.toNat = sr / tb ∧ ppb.toNat = tc * (sr / tb) / sr ∧
        t = { s with
          status := { s.status with pvalid := true, cfgerr := false }
          profile := { psrate := s.params.srate, spb := spb, ppb := ppb } } ∧
        exec .derive s = .next t ∧
        a = (sr : ℚ) / spb.toNat ∧ t.abps = some a ∧ (ppb.toNat : ℤ) = ⌊(tc : ℚ) / a⌋ ∧
        c = ppb.toNat * a ∧ t.acar = some c ∧ t.omega = some (2 * Real.pi * (c : ℝ) / (sr : ℝ))) ∧
    (tb = 0 ∨ sr < tb ∨ tc * (sr / tb) < sr →
      exec .derive s =
        .next { s with
          status := { s.status with pvalid := false, cfgerr := true }
          profile := { psrate := 0, spb := 0, ppb := 0 } })) ∧
  (∀ (i : Instr) (s t : State), i ≠ .derive → exec i s = .next t → t.status.cfgerr = s.status.cfgerr)

/-- Derived from R25 and R115 (b) to (d), which the spec marks as its own inferences: after a `DERIVE` that completes,
`ABPS >= TBPS`, `ACAR <= TCAR`, `SPB × ABPS = PSRATE`, `ACAR = PPB × ABPS`, `OMEGA = 2π × ACAR / PSRATE`, and a second
`DERIVE` changes nothing. -/
def Obligations.DerivedRatesAreExactAndIdempotent : Prop :=
  ∀ s t : State, exec .derive s = .next t → t.status.pvalid = true →
    (∃ a c : ℚ, t.abps = some a ∧ t.acar = some c ∧
      (t.params.tbps.toNat : ℚ) ≤ a ∧ c ≤ (t.params.tcar.toNat : ℚ) ∧
      (t.profile.spb.toNat : ℚ) * a = t.profile.psrate.toNat ∧ c = (t.profile.ppb.toNat : ℚ) * a ∧
      t.omega = some (2 * Real.pi * (c : ℝ) / (t.profile.psrate.toNat : ℝ))) ∧
    exec .derive t = .next t

/-! ### BBC (41_bytebits.md) -/

/-- R126, R127: the eight bits most significant first, and the weights. -/
def Obligations.ByteBitsAreMostSignificantFirst : Prop :=
  (∀ v : CodeUnit, (toBits v).toList = (List.range 8).map (fun i => decide (v.toNat / 2 ^ (7 - i) % 2 = 1))) ∧
  (∀ s : Vector Bit 8, (fromBits s).toNat = 128 * s[0].toNat + 64 * s[1].toNat + 32 * s[2].toNat + 16 * s[3].toNat
    + 8 * s[4].toNat + 4 * s[5].toNat + 2 * s[6].toNat + s[7].toNat)

/-- Derived from R128, whose second half the spec marks as derived: each function undoes the other. -/
def Obligations.ByteBitsRoundTrip : Prop :=
  (∀ v : CodeUnit, fromBits (toBits v) = v) ∧ (∀ s : Vector Bit 8, toBits (fromBits s) = s)

/-! ### FENC (42_encoder.md) -/

/-- R136: `TXLEN` becomes 0, nothing else changes, the contents of `TXBUF` included. -/
def Obligations.TxclrEmptiesTheText : Prop :=
  (∀ w : CmdWord, cmdOp w = 0x4 → decode w = .txclr) ∧ encode .txclr = 0x4000000000 ∧
  ∀ s : State, exec .txclr s = .next { s with txlen := 0 }

/-- R137: a push into a full buffer sets `TXOVF` and nothing else; any other push with `TXLEN` inside the buffer writes the
code unit at index `TXLEN`, leaves every other unit as it was, and adds 1 to `TXLEN`. -/
def Obligations.TxpushWritesAtTxlen : Prop :=
  (∀ w : CmdWord, cmdOp w = 0x5 → decode w = .txpush (w.extractLsb' 0 8)) ∧
  (∀ u : CodeUnit, (encode (.txpush u)).toNat = 0x5000000000 + u.toNat) ∧
  ∀ (s : State) (u : CodeUnit), s.cfg.wf → Memory.wf s.txbuf →
    (s.txlen.toNat = s.cfg.txbufSize →
      exec (.txpush u) s = .next { s with status := { s.status with txovf := true } }) ∧
    (s.txlen.toNat < s.cfg.txbufSize →
      ∃ m : List Host.Cell, ∃ n : Word, n.toNat = s.txlen.toNat + 1 ∧
        exec (.txpush u) s = .next { s with txbuf := m, txlen := n } ∧
        Memory.wf m ∧
        ∀ a : Nat, Memory.read m a = if a = s.txlen.toNat then u else Memory.read s.txbuf a)

/-- Derived from R30 and R103: a text no longer than the buffer, loaded with `TXCLR` and one `TXPUSH` per code unit, is
exactly what `TXBUF[0]` to `TXBUF[TXLEN − 1]` then hold, and nothing but `TXBUF` and `TXLEN` changes. -/
def Obligations.LoadedTextIsWhatTxbufHolds : Prop :=
  ∀ (s : State) (text : List CodeUnit), s.cfg.wf → Memory.wf s.txbuf → text.length ≤ s.cfg.txbufSize →
    ∃ m : List Host.Cell, ∃ n : Word,
      execAll (.txclr :: text.map .txpush) s = .next { s with txbuf := m, txlen := n } ∧
      n.toNat = text.length ∧ Memory.wf m ∧
      (List.range text.length).map (Memory.read m) = text

/-- R83 (with R84 to R89 as Machine/Format.lean writes them): an `ENCODE` that is not refused appends the whole transmission
of the text, `REPEAT` times after `PREAMBLE` sync words, to `LINE` and to `LINEOUT`, and changes nothing else. -/
def Obligations.EncodeAppendsTheTransmission : Prop :=
  (∀ w : CmdWord, cmdOp w = 0x6 → decode w = .encode) ∧ encode .encode = 0x6000000000 ∧
  ∀ (s : State) (text : List CodeUnit) (pre : List Bit),
    s.params.repeatCount ≠ 0 → s.txlen.toNat ≤ s.cfg.txbufSize →
    text = (List.range s.txlen.toNat).map (Memory.read s.txbuf) →
    pre = formatPre s.params.preamble.toNat s.params.repeatCount.toNat text →
    (∀ depth, s.cfg.lineDepth = some depth → s.line.length + pre.length ≤ depth) →
    exec .encode s = .next { s with line := s.line ++ formatLine pre, lineOut := s.lineOut ++ formatLine pre }

/-- R139: with `REPEAT == 0` only `BADARG` is set, whatever else holds; a result that does not fit sets only `LINEOVF`; with
the unbounded depth, or where it fits, `REPEAT >= 1` alone is enough to complete with the whole result appended to `LINE`
and `LINEOUT` and nothing else changed, an empty text and a zero preamble included. -/
def Obligations.EncodeIsRefusedWhole : Prop :=
  ∀ s : State,
    (s.params.repeatCount = 0 →
      exec .encode s = .next { s with status := { s.status with badarg := true } }) ∧
    (s.params.repeatCount ≠ 0 → s.txlen.toNat ≤ s.cfg.txbufSize → ∀ (text : List CodeUnit) (pre : List Bit),
      text = (List.range s.txlen.toNat).map (Memory.read s.txbuf) →
      pre = formatPre s.params.preamble.toNat s.params.repeatCount.toNat text →
      (∀ depth, s.cfg.lineDepth = some depth → depth < s.line.length + pre.length →
        exec .encode s = .next { s with status := { s.status with lineovf := true } }) ∧
      ((∀ depth, s.cfg.lineDepth = some depth → s.line.length + pre.length ≤ depth) →
        exec .encode s = .next { s with line := s.line ++ formatLine pre, lineOut := s.lineOut ++ formatLine pre }))

/-- R89: the differential stage of ENCODE gives the line code of the format; the first line bit is the first bit, every later
one is its bit XOR the previous LINE bit, the length is kept, and the XOR of neighbouring line bits recovers the sequence
(the corrected recurrence of 90_conflicts.md C1). -/
def Obligations.DifferentialStageXorsThePreviousOutput : Prop :=
  ∀ pre out : List Bit, out = differential false pre →
    out = formatLine pre ∧
    out.length = pre.length ∧
    out.head? = pre.head? ∧
    (∀ n, n + 1 < pre.length → out.getD (n + 1) false = (pre.getD (n + 1) false ^^ out.getD n false)) ∧
    (∀ n, n + 1 < pre.length → pre.getD (n + 1) false = (out.getD (n + 1) false ^^ out.getD n false))

/-- Derived from R87 and R149 (a): in the stuffed bits of any stretch of payload, five consecutive `1`s are always followed
at once by a `0`; and taking the stuffed bits out again is possible, since two stretches that stuff alike are alike. -/
def Obligations.StuffedPayloadBreaksEveryRunOfFive : Prop :=
  (∀ data a z : List Bit, (stuffBits 0 data).1 = a ++ List.replicate 5 true ++ z → ∃ z', z = false :: z') ∧
  (∀ data data' : List Bit, (stuffBits 0 data).1 = (stuffBits 0 data').1 → data = data')

/-- Derived from R91 and R148, which the spec marks as derived: the length of a transmission, with at most `8NR / 5` stuffed
bits, and the shortest one. -/
def Obligations.TransmissionLengthFollowsTheFormula : Prop :=
  (∀ (p r : Nat) (text : List CodeUnit), ∃ stuffed : Nat, stuffed ≤ 8 * text.length * r / 5 ∧
    (lineBits p r text).length =
      8 * p + 48 * r + 8 * text.length * r + 8 * (text.length * r / 10) + stuffed + 16) ∧
  (lineBits 0 1 []).length = 64

/-! ### WGEN (44_waveform.md) -/

/-- R191: `LINE` is emptied; `LINEOUT` and everything else stay. -/
def Obligations.LineclrEmptiesLine : Prop :=
  (∀ w : CmdWord, cmdOp w = 0x7 → decode w = .lineclr) ∧ encode .lineclr = 0x7000000000 ∧
  ∀ s : State, exec .lineclr s = .next { s with line := [] }

/-- R192: the bit goes as given to the tail of `LINE` and to `LINEOUT`; a full `LINE` sets `LINEOVF` and nothing else. -/
def Obligations.LinepushAppendsTheBit : Prop :=
  (∀ w : CmdWord, cmdOp w = 0x8 → decode w = .linepush (w.getLsbD 0)) ∧
  (∀ b, (encode (.linepush b)).toNat = 0x8000000000 + b.toNat) ∧
  ∀ (s : State) (b : Bit),
    (s.cfg.lineDepth ≠ some s.line.length →
      exec (.linepush b) s = .next { s with line := s.line ++ [b], lineOut := s.lineOut ++ [b] }) ∧
    (s.cfg.lineDepth = some s.line.length →
      exec (.linepush b) s = .next { s with status := { s.status with lineovf := true } })

/-- R193 and R202: with a profile, `LINE` is drained and `SAMP` grows by the gap, `SPB` samples per bit with the phase
accumulator at `(PPB × i) mod SPB` for sample `i`, and the gap again, `g` as the pseudocode of R193 computes it; without a
profile only `NOPROF` is set. Every sample passes through the machine's `Q` as it leaves (`State.quantise`). -/
def Obligations.SynthDrainsLineIntoSamp : Prop :=
  (∀ w : CmdWord, cmdOp w = 0x9 → decode w = .synth) ∧ encode .synth = 0x9000000000 ∧
  ∀ (s : State) (n g : Nat) (gap : List Sample),
    n = s.profile.psrate.toNat * s.params.gapms.toNat →
    g = (if 500 < n % 1000 ∨ (n % 1000 = 500 ∧ n / 1000 % 2 = 1) then n / 1000 + 1 else n / 1000) →
    gap = List.replicate g Sample.gap →
    (s.status.pvalid = true →
      exec .synth s = .next { s with
        line := []
        samp := s.samp ++ s.quantise (gap ++ formatSignal s.profile.spb.toNat s.profile.ppb.toNat s.line ++ gap) }) ∧
    (s.status.pvalid = false →
      exec .synth s = .next { s with status := { s.status with noprof := true } })

/-- R194, R195: sample `i` of the signal part belongs to bit `i div SPB`, is made with the phase accumulator at
`(PPB × i) mod SPB`, and has the exact real value `sym × cos(OMEGA × i)` with `OMEGA = 2π × PPB / SPB`; the element of
`SAMP` is `Q` of it. -/
def Obligations.SynthSamplesAreTheModulatedCarrier : Prop :=
  ∀ (s : State) (spb ppb g : Nat), s.status.pvalid = true → s.profile.spb.toNat = spb → s.profile.ppb.toNat = ppb →
    gapSamples s.profile.psrate.toNat s.params.gapms.toNat = g → 1 ≤ spb →
    ∃ t, exec .synth s = .next t ∧
      ∀ (b i : Nat) (bit : Bit), s.line[b]? = some bit → i / spb = b →
        ∃ x : Sample, ∃ e : QSample, t.samp[s.samp.length + g + i]? = some e ∧ e = ⟨s.cfg.quantiser, x⟩ ∧
          x = .carrier bit (ppb * i % spb) spb ∧
          x.value = (if bit then 1 else -1) * Real.cos (2 * Real.pi * ppb / spb * i) ∧
          e.value = s.cfg.quantiser.apply ((if bit then 1 else -1) * Real.cos (2 * Real.pi * ppb / spb * i))

/-- R196: the gap before and the gap after have the same number of zero samples, the profile's
`PSRATE × GAPMS / 1000` rounded to the nearest integer, a tie to the even one; a gap sample is `Q(0)`. -/
def Obligations.GapLengthIsRoundedHalfToEven : Prop :=
  ∀ (s : State) (q : ℚ), s.status.pvalid = true →
    q = (s.profile.psrate.toNat : ℚ) * (s.params.gapms.toNat : ℚ) / 1000 →
    ∃ (t : State) (g : Nat) (mid : List QSample) (z : QSample), exec .synth s = .next t ∧
      t.samp = s.samp ++ List.replicate g z ++ mid ++ List.replicate g z ∧
      mid.length = s.line.length * s.profile.spb.toNat ∧
      |(g : ℚ) - q| ≤ 1 / 2 ∧ (|(g : ℚ) - q| = 1 / 2 → Even g) ∧
      z = ⟨s.cfg.quantiser, .gap⟩ ∧ z.value = s.cfg.quantiser.apply 0

/-- R197: the number of samples of one `SYNTH`, and the rule's scenario: 640 samples for `SPB = 320`, two bits and no
gap, each of magnitude at most 1 before `Q`, and on `SAMP` with the default `Q`. -/
def Obligations.SynthOutputLength : Prop :=
  ∀ s : State, s.status.pvalid = true →
    ∃ t, exec .synth s = .next t ∧
      t.samp.length = s.samp.length + 2 * gapSamples s.profile.psrate.toNat s.params.gapms.toNat
        + s.line.length * s.profile.spb.toNat ∧
      (s.profile.spb = 320 → s.line.length = 2 → s.params.gapms = 0 →
        t.samp.length = s.samp.length + 640 ∧
          ∀ e ∈ t.samp.drop s.samp.length, |e.exact.value| ≤ 1 ∧ (s.cfg.quantiser = .identity → |e.value| ≤ 1))

/-- Derived from R198 and R200, whose bound and first samples the spec marks as derived: before `Q` every sample has magnitude
at most 1 and the first sample of every bit is exactly `+1` or `−1`; with `Q` the identity the same holds on `SAMP` as it
stands, in every state with the invariant. -/
def Obligations.SampleMagnitudeIsAtMostOne : Prop :=
  (∀ s : State, ∀ e ∈ s.samp, |e.exact.value| ≤ 1) ∧
  (∀ s : State, Inv s → s.cfg.quantiser = .identity → ∀ v ∈ s.sampValues, |v| ≤ 1) ∧
  (∀ (s : State) (g : Nat), s.status.pvalid = true → 1 ≤ s.profile.spb.toNat →
    gapSamples s.profile.psrate.toNat s.params.gapms.toNat = g →
    ∃ t, exec .synth s = .next t ∧
      ∀ b < s.line.length, ∃ e, t.samp[s.samp.length + g + b * s.profile.spb.toNat]? = some e ∧
        (e.exact.value = 1 ∨ e.exact.value = -1) ∧ (s.cfg.quantiser = .identity → e.value = 1 ∨ e.value = -1))

/-- Derived from R200, which the spec marks as derived: every bit starts at carrier phase 0, so that synthesising two halves
gives, gaps apart, the samples of the whole, and the samples of a `0` bit are the negatives of those of a `1` bit. -/
def Obligations.EveryBitStartsAtPhaseZero : Prop :=
  ∀ spb ppb : Nat, 1 ≤ spb →
    (∀ a b : List Bit, signalSamples spb ppb 0 (a ++ b) = signalSamples spb ppb 0 a ++ signalSamples spb ppb 0 b) ∧
    (signalSamples spb ppb 0 [false]).map Sample.value =
      (signalSamples spb ppb 0 [true]).map (fun x => -x.value)

/-! ### FDEC (43_decoder.md) -/

/-- R165: in SkipOne only `lastRaw` and `mode` change: to SkipTwo on a recovered `1`, to Decode on a `0`. -/
def Obligations.SkipOneConsumesOneBit : Prop :=
  ∀ (s : State) (raw : Bit), s.dec.mode = .skipOne →
    exec (.rxbit raw) s = .next { s with
      dec := { s.dec with lastRaw := raw, mode := if (s.dec.lastRaw ^^ raw) then .skipTwo else .decode } }

/-- R166: in SkipTwo a recovered `1` is the desync reset, which leaves `shiftBuf` and `rxLog`; a recovered `0` clears
`bitCnt` and returns to Decode. -/
def Obligations.SkipTwoRealignsOrResets : Prop :=
  ∀ (s : State) (raw : Bit), s.dec.mode = .skipTwo →
    ((s.dec.lastRaw ^^ raw) = true →
      exec (.rxbit raw) s = .next { s with
        dec := { s.dec with lastRaw := raw, mode := .waitSync, resumeMode := .waitStart, bitCnt := 0, onesCnt := 0,
                            syncRun := 0 } }) ∧
    ((s.dec.lastRaw ^^ raw) = false →
      exec (.rxbit raw) s = .next { s with dec := { s.dec with lastRaw := raw, bitCnt := 0, mode := .decode } })

/-- Derived from R164 and R163 (b): what the common part leaves in WaitSync, WaitStart and Decode before the state's own test: the recovered bit at bit
0 of `shiftBuf`, the oldest bit dropped, `bitCnt` one up, `onesCnt` cleared on `0` and one up, to at most 7, on `1`. -/
def Obligations.CommonPartShiftsTheRecoveredBitIn : Prop :=
  ∀ (d : Decoder) (r : Bit),
    (d.shiftIn r).shiftBuf.toNat = d.shiftBuf.toNat * 2 % 256 + r.toNat ∧
    (d.bitCnt.toNat ≤ 7 → (d.shiftIn r).bitCnt.toNat = d.bitCnt.toNat + 1) ∧
    (r = false → (d.shiftIn r).onesCnt = 0) ∧
    (r = true → (d.shiftIn r).onesCnt.toNat = min (d.onesCnt.toNat + 1) 7) ∧
    (d.shiftIn r).mode = d.mode ∧ (d.shiftIn r).resumeMode = d.resumeMode ∧ (d.shiftIn r).syncRun = d.syncRun ∧
    (d.shiftIn r).lastRaw = d.lastRaw

/-- R167, with the wrap of R163 (a): in WaitSync the pattern `0x7E` is looked for at every bit; a match zeroes the counters
and goes to `resumeMode`, otherwise only the common part and the wrap of `bitCnt` happen. -/
def Obligations.WaitSyncSearchesEveryBit : Prop :=
  ∀ (s : State) (raw : Bit) (d : Decoder), s.dec.mode = .waitSync →
    d = ({ s.dec with lastRaw := raw } : Decoder).shiftIn (s.dec.lastRaw ^^ raw) →
    (d.shiftBuf = 0x7E →
      exec (.rxbit raw) s = .next { s with
        dec := { d with bitCnt := 0, onesCnt := 0, syncRun := 0
                        mode := match s.dec.resumeMode with | .decode => Mode.decode | .waitStart => Mode.waitStart } }) ∧
    (d.shiftBuf ≠ 0x7E →
      exec (.rxbit raw) s = .next { s with dec := { d with bitCnt := if d.bitCnt = 8 then 0 else d.bitCnt } })

/-- R168: in WaitStart nothing is compared off the byte boundary; at it a sync word adds 1 to `syncRun`, another byte zeroes
it, and the fifth sync word locks the decoder. -/
def Obligations.WaitStartCountsAlignedSyncWords : Prop :=
  ∀ (s : State) (raw : Bit) (d : Decoder), s.dec.mode = .waitStart →
    d = ({ s.dec with lastRaw := raw } : Decoder).shiftIn (s.dec.lastRaw ^^ raw) →
    (d.bitCnt ≠ 8 → exec (.rxbit raw) s = .next { s with dec := d }) ∧
    (d.bitCnt = 8 → d.shiftBuf ≠ 0x7E →
      exec (.rxbit raw) s = .next { s with dec := { d with bitCnt := 0, syncRun := 0 } }) ∧
    (d.bitCnt = 8 → d.shiftBuf = 0x7E → s.dec.syncRun.toNat + 1 < 5 →
      exec (.rxbit raw) s = .next { s with dec := { d with bitCnt := 0, syncRun := s.dec.syncRun + 1 } }) ∧
    (d.bitCnt = 8 → d.shiftBuf = 0x7E → 5 ≤ s.dec.syncRun.toNat + 1 →
      exec (.rxbit raw) s = .next { s with
        dec := { d with bitCnt := 0, onesCnt := 0, syncRun := 0, resumeMode := .decode, mode := .decode } })

/-- R169: in Decode the byte test and the ones test are independent: the eighth bit emits the value of `shiftBuf` on `RXOUT`
and `rxLog` and zeroes `bitCnt`; the fifth `1` zeroes `onesCnt` and goes to SkipOne. -/
def Obligations.DecodeEmitsBytesAndSkipsAfterFiveOnes : Prop :=
  ∀ (s : State) (raw : Bit) (d : Decoder), s.dec.mode = .decode →
    d = ({ s.dec with lastRaw := raw } : Decoder).shiftIn (s.dec.lastRaw ^^ raw) →
    exec (.rxbit raw) s = .next { s with
      dec := { d with
        bitCnt := if d.bitCnt = 8 then 0 else d.bitCnt
        onesCnt := if d.onesCnt = 5 then 0 else d.onesCnt
        mode := if d.onesCnt = 5 then .skipOne else .decode }
      rxOut := s.rxOut ++ (if d.bitCnt = 8 then [d.shiftBuf] else [])
      rxLog := s.rxLog ++ (if d.bitCnt = 8 then [d.shiftBuf] else []) }

/-- R180: `RXRESET` gives every decoder register and `rxLog` the value after hardware reset and touches nothing else. -/
def Obligations.RxresetRestoresTheResetDecoder : Prop :=
  (∀ w : CmdWord, cmdOp w = 0xB → decode w = .rxreset) ∧ encode .rxreset = 0xB000000000 ∧
  ∀ s : State,
    exec .rxreset s = .next { s with
      dec := { mode := .waitSync, resumeMode := .waitStart, shiftBuf := 0x00, bitCnt := 0, onesCnt := 0, syncRun := 0,
               lastRaw := false }
      rxLog := [] } ∧
    (∀ t, exec .rxreset s = .next t → t.dec = (resetEvent s).dec ∧ t.rxLog = (resetEvent s).rxLog)

/-- Derived from R181, which the spec marks as derived: after `RXRESET`, whatever came before, the same bits give the same
decoder registers, the same `rxLog` and the same bytes on `RXOUT` as on a machine fresh from reset. -/
def Obligations.RxresetEqualsAFreshDecoder : Prop :=
  ∀ (s : State) (bits : List Bit), ∃ t u, execAll (pseudoDecode bits true) s = .next t ∧
    execAll (pseudoDecode bits false) State.reset = .next u ∧
    t.dec = u.dec ∧ t.rxLog = u.rxLog ∧ t.rxOut = s.rxOut ++ u.rxOut

/-- R177: a decoder in its reset state that is given the bits one `ENCODE` appended to `LINEOUT` has the text, `REPEAT` times,
in `rxLog`, and is left as R174 says: WaitSync, counters 0, `shiftBuf = 0xDF`, `lastRaw` the last line bit. -/
def Obligations.DecodingATransmissionReproducesTheText : Prop :=
  ∀ (s t : State) (text : List CodeUnit) (bits : List Bit),
    s.dec = Decoder.reset → s.rxLog = [] →
    text = (List.range s.txlen.toNat).map (Memory.read s.txbuf) →
    exec .encode s = .next t → t.lineOut = s.lineOut ++ bits → bits ≠ [] →
    ∃ u, execAll (pseudoDecode bits false) t = .next u ∧
      u.rxLog = (List.replicate s.params.repeatCount.toNat text).flatten ∧
      u.dec = { mode := .waitSync, resumeMode := .waitStart, shiftBuf := 0xDF, bitCnt := 0, onesCnt := 0, syncRun := 0,
                lastRaw := bits.getLastD false }

/-- Derived from R178, which the spec marks as derived: with at least one preamble word a line on which every bit is inverted
still decodes to the text, every repetition of it. -/
def Obligations.InvertedLineDecodesWithAPreamble : Prop :=
  ∀ (s : State) (p r : Nat) (text : List CodeUnit), s.dec = Decoder.reset → s.rxLog = [] → 1 ≤ p → 1 ≤ r →
    ∃ u, execAll (pseudoDecode ((lineBits p r text).map (fun b => !b)) false) s = .next u ∧
      u.rxLog = (List.replicate r text).flatten ∧ u.dec.mode = .waitSync

/-- Derived from R171, which the spec marks as derived: a sync word that arrives in Decode, with at most four ones counted (all
that R176 allows there), leaves the decoder in Decode at a byte boundary whatever `bitCnt` was; at a byte boundary no byte
is emitted. -/
def Obligations.SyncWordInDecodeIsPassedOver : Prop :=
  ∀ s : State, s.dec.mode = .decode → s.dec.onesCnt.toNat ≤ 4 →
    ∃ u, execAll (pseudoDecode (differential s.dec.lastRaw sync) false) s = .next u ∧
      u.dec.mode = .decode ∧ u.dec.bitCnt = 0 ∧ u.dec.onesCnt = 0 ∧ u.dec.lastRaw = s.dec.lastRaw ∧
      (s.dec.bitCnt = 0 → u.rxOut = s.rxOut ∧ u.rxLog = s.rxLog)

/-- Derived from R182 (a), from R175, which the spec marks as derived, and from R35, which keeps every command but `RXBIT` and
`RXRESET` from the decoder registers: whatever the command, WaitSync is entered from another
mode only by a recovered `1` in SkipTwo or by `RXRESET`, and WaitStart is left only to Decode, or by `RXRESET`. -/
def Obligations.WaitSyncIsReenteredOnlyFromSkipTwo : Prop :=
  ∀ (i : Instr) (s t : State), exec i s = .next t →
    (s.dec.mode ≠ .waitSync → t.dec.mode = .waitSync →
      i = .rxreset ∨ (s.dec.mode = .skipTwo ∧ i = .rxbit (!s.dec.lastRaw))) ∧
    (s.dec.mode = .waitStart → t.dec.mode ≠ .waitStart → t.dec.mode = .decode ∨ i = .rxreset)

/-! ### Rules of the whole machine -/

/-- Derived from R35 and R262: only `RXBIT` and `RXRESET` touch the decoder registers, `rxLog` and `RXOUT`, and they touch
nothing else. -/
def Obligations.DecoderIsWrittenOnlyByItsCommands : Prop :=
  ∀ (i : Instr) (s t : State), exec i s = .next t →
    (decoderCommand i = false → t.dec = s.dec ∧ t.rxLog = s.rxLog ∧ t.rxOut = s.rxOut) ∧
    (decoderCommand i = true → t = { s with dec := t.dec, rxLog := t.rxLog, rxOut := t.rxOut })

/-- Derived from R183 and R262: a decoder command and any other command but `GETP DECSTATE` may be given in either order. -/
def Obligations.DecoderCommandsCommuteWithTheOthers : Prop :=
  ∀ (d i : Instr) (s t u : State), decoderCommand d = true → decoderCommand i = false → i ≠ .getp .decstate →
    exec i s = .next t → exec d t = .next u → ∃ t', exec d s = .next t' ∧ exec i t' = .next u

/-- Derived from the column "written by" of R21, from R22, R23 (who sets each flag), R24, R30, R33, R35, R44 to R47 and R8: which
commands can change which piece of state, that no command changes the OPEN parameters, and that what is pending in
`CMD` is the step's own business. -/
def Obligations.EveryPieceOfStateHasItsWriters : Prop :=
  ∀ (i : Instr) (s t : State), exec i s = .next t →
    t.cfg = s.cfg ∧ t.cmd = s.cmd ∧
    ((∀ sel v, i ≠ .setp sel v) → t.params = s.params) ∧
    (i ≠ .derive → t.profile = s.profile ∧ t.status.pvalid = s.status.pvalid ∧ t.status.cfgerr = s.status.cfgerr) ∧
    ((∀ u, i ≠ .txpush u) → t.txbuf = s.txbuf ∧ (i ≠ .txclr → t.txlen = s.txlen)) ∧
    ((∀ b, i ≠ .linepush b) → i ≠ .encode →
      t.lineOut = s.lineOut ∧ (i ≠ .synth → i ≠ .lineclr → t.line = s.line)) ∧
    (i ≠ .synth → t.samp = s.samp) ∧
    ((∀ sel, i ≠ .getp sel) → t.rsp = s.rsp) ∧
    ((∀ raw, i ≠ .rxbit raw) → t.rxOut = s.rxOut ∧ (i ≠ .rxreset → t.dec = s.dec ∧ t.rxLog = s.rxLog)) ∧
    ((∀ u, i ≠ .txpush u) → t.status.txovf = s.status.txovf) ∧
    (i ≠ .encode → t.status.badarg = s.status.badarg) ∧
    (i ≠ .synth → t.status.noprof = s.status.noprof) ∧
    ((∀ sel v, i ≠ .setp sel v) → (∀ sel, i ≠ .getp sel) → i ≠ .reservedC → i ≠ .reservedD → i ≠ .reservedE →
      i ≠ .reservedF → t.status.illcmd = s.status.illcmd) ∧
    ((∀ b, i ≠ .linepush b) → i ≠ .encode → t.status.lineovf = s.status.lineovf)

/-- Derived from the tables of R23 and R226: each sticky flag stays set, and is newly set exactly by its cause. -/
def Obligations.RefusalFlagsAreSetExactlyByTheirCauses : Prop :=
  ∀ (i : Instr) (s t : State), exec i s = .next t →
    (t.status.txovf = true ↔ s.status.txovf = true ∨ ((∃ u, i = .txpush u) ∧ s.txlen.toNat = s.cfg.txbufSize)) ∧
    (t.status.badarg = true ↔ s.status.badarg = true ∨ (i = .encode ∧ s.params.repeatCount = 0)) ∧
    (t.status.noprof = true ↔ s.status.noprof = true ∨ (i = .synth ∧ s.status.pvalid = false)) ∧
    (t.status.illcmd = true ↔ s.status.illcmd = true ∨ i.wellFormed = false) ∧
    (t.status.lineovf = true ↔ s.status.lineovf = true ∨
      ((∃ b, i = .linepush b) ∧ s.cfg.lineDepth = some s.line.length) ∨
      (i = .encode ∧ s.params.repeatCount ≠ 0 ∧ ∃ depth, s.cfg.lineDepth = some depth ∧
        depth < s.line.length + (formatPre s.params.preamble.toNat s.params.repeatCount.toNat
          ((List.range s.txlen.toNat).map (Memory.read s.txbuf))).length))

/-- Derived from R44 to R47: the four traces only ever grow at their tail, and a `GETP`, completed or refused, adds exactly
one word to `RSP`. -/
def Obligations.TracesOnlyGrowAtTheTail : Prop :=
  (∀ (i : Instr) (s t : State), exec i s = .next t →
    s.lineOut <+: t.lineOut ∧ s.samp <+: t.samp ∧ s.rxOut <+: t.rxOut ∧ s.rsp <+: t.rsp) ∧
  (∀ (sel : Sel) (s : State), ∃ t, exec (.getp sel) s = .next t ∧ t.rsp.length = s.rsp.length + 1)

/-- Derived from R231 and R61: the one stop of the model, an access to `TXBUF` outside the buffer, comes only from `TXPUSH`
or `ENCODE` with `TXLEN` above `TXBUF_SIZE`, which no run reaches; no command is refused by the model
(notes/assumptions/7.md). -/
def Obligations.OnlyTxlenOutsideTheBufferFaults : Prop :=
  ∀ (i : Instr) (s : State),
    (∀ f, exec i s = .fault f → s.cfg.txbufSize < s.txlen.toNat ∧ (i = .encode ∨ ∃ u, i = .txpush u)) ∧
    (∀ r, exec i s ≠ .refused r)

/-- R44: only `SYNTH` appends to `SAMP`, at its tail; each value appended is `Q(v)` for the exact value `v` of the sample, with
the machine's own `Q`; `SAMP` is empty after reset. -/
def Obligations.SampHoldsTheQuantisedExactValues : Prop :=
  (∀ (i : Instr) (s t : State), exec i s = .next t →
    (i ≠ .synth → t.samp = s.samp) ∧
    ∃ xs : List Sample, t.samp = s.samp ++ s.quantise xs ∧
      t.sampValues = s.sampValues ++ xs.map (fun x => s.cfg.quantiser.apply x.value) ∧
      (i = .synth → s.status.pvalid = true →
        xs = List.replicate (gapSamples s.profile.psrate.toNat s.params.gapms.toNat) Sample.gap
          ++ formatSignal s.profile.spb.toNat s.profile.ppb.toNat s.line
          ++ List.replicate (gapSamples s.profile.psrate.toNat s.params.gapms.toNat) Sample.gap)) ∧
  (∀ s : State, s.status.pvalid = true → ∃ t, exec .synth s = .next t) ∧
  (∀ s : State, (resetEvent s).samp = [])
end

