-- ==== Sys2Proof/Laws/Memory.lean ====
section
/-! SUPPORT. `TXBUF` as memory: every operation keeps the canonical form, a read after a write, and what the operations over
the state can do. -/

namespace Sys2Proof.Machine

/-- What an index below every cell of a memory reads as. -/
theorem Memory.read_of_all_lt {m : List Host.Cell} {a : Nat} (h : ∀ c ∈ m, a < c.1) : Memory.read m a = blankUnit := by
  induction m with
  | nil => rfl
  | cons c rest ih =>
    have hc := h c (by simp)
    simp only [Memory.read]
    rw [if_neg (by omega)]
    exact ih (fun d hd => h d (List.mem_cons_of_mem _ hd))

theorem Memory.mem_cons {a : Nat} {v : CodeUnit} {m : List Host.Cell} {c : Host.Cell} (h : c ∈ Memory.cons a v m) :
    c = (a, v) ∨ c ∈ m := by
  unfold Memory.cons at h
  split at h
  · exact .inr h
  · simpa using h

theorem Memory.wf_cons {a : Nat} {v : CodeUnit} {m : List Host.Cell} (hm : Memory.wf m) (ha : ∀ c ∈ m, a < c.1) :
    Memory.wf (Memory.cons a v m) := by
  unfold Memory.cons
  split
  · exact hm
  · next hv =>
    refine ⟨List.pairwise_cons.2 ⟨ha, hm.1⟩, fun c hc => ?_⟩
    rcases List.mem_cons.1 hc with rfl | hc
    · exact hv
    · exact hm.2 c hc

theorem Memory.read_cons {a : Nat} {v : CodeUnit} {m : List Host.Cell} (ha : ∀ c ∈ m, a < c.1) (b : Nat) :
    Memory.read (Memory.cons a v m) b = if b = a then v else Memory.read m b := by
  unfold Memory.cons
  split
  · next hv =>
    split
    · next h => rw [h, Memory.read_of_all_lt ha, hv]
    · rfl
  · simp only [Memory.read, eq_comm (a := a)]

theorem Memory.wf_tail {c : Host.Cell} {m : List Host.Cell} (h : Memory.wf (c :: m)) : Memory.wf m :=
  ⟨(List.pairwise_cons.1 h.1).2, fun d hd => h.2 d (List.mem_cons_of_mem _ hd)⟩

/-- A cell of the memory after a write is the one written or was there before. -/
theorem Memory.mem_write {m : List Host.Cell} {a : Nat} {v : CodeUnit} {c : Host.Cell} (h : c ∈ Memory.write m a v) :
    c = (a, v) ∨ c ∈ m := by
  induction m with
  | nil => exact Memory.mem_cons h
  | cons d rest ih =>
    simp only [Memory.write] at h
    split at h
    · exact Memory.mem_cons h
    · split at h
      · exact (Memory.mem_cons h).imp_right (List.mem_cons_of_mem _)
      · rcases List.mem_cons.1 h with rfl | h
        · exact .inr (List.mem_cons_self ..)
        · exact (ih h).imp_right (List.mem_cons_of_mem _)

/-- A write keeps the canonical form. -/
theorem Memory.wf_write {m : List Host.Cell} (hm : Memory.wf m) (a : Nat) (v : CodeUnit) :
    Memory.wf (Memory.write m a v) := by
  induction m with
  | nil => exact Memory.wf_cons hm (by simp)
  | cons d rest ih =>
    have hlt := (List.pairwise_cons.1 hm.1).1
    have hrest := Memory.wf_tail hm
    simp only [Memory.write]
    split
    · next h =>
      refine Memory.wf_cons hm fun c hc => ?_
      rcases List.mem_cons.1 hc with rfl | hc
      · exact h
      · exact lt_trans h (hlt c hc)
    · next h =>
      split
      · next h' => exact Memory.wf_cons hrest (fun c hc => h' ▸ hlt c hc)
      · next h' =>
        refine ⟨List.pairwise_cons.2 ⟨fun c hc => ?_, (ih hrest).1⟩, fun c hc => ?_⟩
        · rcases Memory.mem_write hc with rfl | hc
          · show d.1 < a
            omega
          · exact hlt c hc
        · rcases List.mem_cons.1 hc with rfl | hc
          · exact hm.2 _ (List.mem_cons_self ..)
          · exact (ih hrest).2 c hc

/-- A read after a write: the value written at its index, every other index as before. -/
theorem Memory.read_write {m : List Host.Cell} (hm : Memory.wf m) (a : Nat) (v : CodeUnit) (b : Nat) :
    Memory.read (Memory.write m a v) b = if b = a then v else Memory.read m b := by
  induction m with
  | nil => exact Memory.read_cons (by simp) b
  | cons d rest ih =>
    have hlt := (List.pairwise_cons.1 hm.1).1
    have hrest := Memory.wf_tail hm
    simp only [Memory.write]
    split
    · next h =>
      refine Memory.read_cons (fun c hc => ?_) b
      rcases List.mem_cons.1 hc with rfl | hc
      · exact h
      · exact lt_trans h (hlt c hc)
    · next h =>
      split
      · next h' =>
        rw [Memory.read_cons (fun c hc => h' ▸ hlt c hc)]
        simp only [Memory.read]
        split
        · rfl
        · rw [if_neg (by omega)]
      · next h' =>
        simp only [Memory.read]
        split
        · rw [if_neg (by omega)]
        · exact ih hrest

/-- The memory after reset is in canonical form. -/
theorem Memory.wf_reset (c : Config) : Memory.wf (State.resetWith c).txbuf := by
  simp [Memory.wf, State.resetWith]

/-! ### Over the state -/

/-- What `memRead` can do. -/
theorem State.memRead_cases (s : State) (a : Nat) :
    (a < s.cfg.txbufSize ∧ s.memRead a = .ok (Memory.read s.txbuf a)) ∨
    (s.cfg.txbufSize ≤ a ∧ s.memRead a = .error (.txbufIndex a)) := by
  unfold State.memRead
  split
  · exact .inl ⟨‹_›, rfl⟩
  · exact .inr ⟨by omega, rfl⟩

/-- What `memWrite` can do. -/
theorem State.memWrite_cases (s : State) (a : Nat) (v : CodeUnit) :
    (a < s.cfg.txbufSize ∧ s.memWrite a v = .ok { s with txbuf := Memory.write s.txbuf a v }) ∨
    (s.cfg.txbufSize ≤ a ∧ s.memWrite a v = .error (.txbufIndex a)) := by
  unfold State.memWrite
  split
  · exact .inl ⟨‹_›, rfl⟩
  · exact .inr ⟨by omega, rfl⟩

/-- `n` units from `start` on, all inside the buffer, in index order. -/
theorem State.readUnits_ok (s : State) {start n : Nat} (h : start + n ≤ s.cfg.txbufSize) :
    s.readUnits start n = .ok ((List.range' start n).map (Memory.read s.txbuf)) := by
  induction n generalizing start with
  | zero => rfl
  | succ n ih =>
    rcases s.memRead_cases start with ⟨_, h1⟩ | ⟨h1, _⟩
    · simp only [State.readUnits, h1, ih (start := start + 1) (by omega), List.range'_succ, List.map_cons]
    · omega

/-- A run of units that leaves the buffer faults. -/
theorem State.readUnits_error (s : State) {start n : Nat} (h : s.cfg.txbufSize < start + n) (hn : 0 < n) :
    ∃ f, s.readUnits start n = .error f := by
  induction n generalizing start with
  | zero => omega
  | succ n ih =>
    rcases s.memRead_cases start with ⟨h1, h2⟩ | ⟨_, h2⟩
    · obtain ⟨f, hf⟩ := ih (start := start + 1) (by omega) (by omega)
      exact ⟨f, by simp only [State.readUnits, h2, hf]⟩
    · exact ⟨_, by simp only [State.readUnits, h2]; rfl⟩

/-- What `readText` can do: the text in index order when `TXLEN` is within the buffer, else a fault. -/
theorem State.readText_cases (s : State) :
    (s.txlen.toNat ≤ s.cfg.txbufSize ∧
      s.readText = .ok ((List.range s.txlen.toNat).map (Memory.read s.txbuf))) ∨
    (s.cfg.txbufSize < s.txlen.toNat ∧ ∃ f, s.readText = .error f) := by
  unfold State.readText
  by_cases h : s.txlen.toNat ≤ s.cfg.txbufSize
  · exact .inl ⟨h, by rw [s.readUnits_ok (by omega), List.range_eq_range']⟩
  · exact .inr ⟨by omega, s.readUnits_error (by omega) (by omega)⟩

/-- When `n` more bits fit in `LINE`. -/
theorem State.lineRoom_iff (s : State) (n : Nat) :
    s.lineRoom n = true ↔ ∀ depth, s.cfg.lineDepth = some depth → s.line.length + n ≤ depth := by
  unfold State.lineRoom
  cases h : s.cfg.lineDepth <;> simp

end Sys2Proof.Machine
end

