-- ==== Sys2Proof/Laws/State.lean ====
section
/-! SUPPORT. One lemma per field per update of State: what each named update writes and what it leaves. -/

namespace Sys2Proof.Machine

variable (s : State)

/-! ### `State.refuse` -/

@[simp] theorem State.refuse_cfg (f : RefusalFlag) : (s.refuse f).cfg = s.cfg := rfl
@[simp] theorem State.refuse_cmd (f : RefusalFlag) : (s.refuse f).cmd = s.cmd := rfl
@[simp] theorem State.refuse_params (f : RefusalFlag) : (s.refuse f).params = s.params := rfl
@[simp] theorem State.refuse_status (f : RefusalFlag) : (s.refuse f).status = s.status.set f := rfl
@[simp] theorem State.refuse_profile (f : RefusalFlag) : (s.refuse f).profile = s.profile := rfl
@[simp] theorem State.refuse_txlen (f : RefusalFlag) : (s.refuse f).txlen = s.txlen := rfl
@[simp] theorem State.refuse_txbuf (f : RefusalFlag) : (s.refuse f).txbuf = s.txbuf := rfl
@[simp] theorem State.refuse_line (f : RefusalFlag) : (s.refuse f).line = s.line := rfl
@[simp] theorem State.refuse_dec (f : RefusalFlag) : (s.refuse f).dec = s.dec := rfl
@[simp] theorem State.refuse_rxLog (f : RefusalFlag) : (s.refuse f).rxLog = s.rxLog := rfl
@[simp] theorem State.refuse_lineOut (f : RefusalFlag) : (s.refuse f).lineOut = s.lineOut := rfl
@[simp] theorem State.refuse_samp (f : RefusalFlag) : (s.refuse f).samp = s.samp := rfl
@[simp] theorem State.refuse_rxOut (f : RefusalFlag) : (s.refuse f).rxOut = s.rxOut := rfl
@[simp] theorem State.refuse_rsp (f : RefusalFlag) : (s.refuse f).rsp = s.rsp := rfl

/-! ### `State.configurationError` -/

@[simp] theorem State.configurationError_cfg : (s.configurationError).cfg = s.cfg := rfl
@[simp] theorem State.configurationError_cmd : (s.configurationError).cmd = s.cmd := rfl
@[simp] theorem State.configurationError_params : (s.configurationError).params = s.params := rfl
@[simp] theorem State.configurationError_status : (s.configurationError).status = { s.status with pvalid := false, cfgerr := true } := rfl
@[simp] theorem State.configurationError_profile : (s.configurationError).profile = { psrate := 0, spb := 0, ppb := 0 } := rfl
@[simp] theorem State.configurationError_txlen : (s.configurationError).txlen = s.txlen := rfl
@[simp] theorem State.configurationError_txbuf : (s.configurationError).txbuf = s.txbuf := rfl
@[simp] theorem State.configurationError_line : (s.configurationError).line = s.line := rfl
@[simp] theorem State.configurationError_dec : (s.configurationError).dec = s.dec := rfl
@[simp] theorem State.configurationError_rxLog : (s.configurationError).rxLog = s.rxLog := rfl
@[simp] theorem State.configurationError_lineOut : (s.configurationError).lineOut = s.lineOut := rfl
@[simp] theorem State.configurationError_samp : (s.configurationError).samp = s.samp := rfl
@[simp] theorem State.configurationError_rxOut : (s.configurationError).rxOut = s.rxOut := rfl
@[simp] theorem State.configurationError_rsp : (s.configurationError).rsp = s.rsp := rfl

/-! ### `State.storeProfile` -/

@[simp] theorem State.storeProfile_cfg (a b : Nat) : (s.storeProfile a b).cfg = s.cfg := rfl
@[simp] theorem State.storeProfile_cmd (a b : Nat) : (s.storeProfile a b).cmd = s.cmd := rfl
@[simp] theorem State.storeProfile_params (a b : Nat) : (s.storeProfile a b).params = s.params := rfl
@[simp] theorem State.storeProfile_status (a b : Nat) : (s.storeProfile a b).status = { s.status with pvalid := true, cfgerr := false } := rfl
@[simp] theorem State.storeProfile_profile (a b : Nat) : (s.storeProfile a b).profile = { psrate := s.params.srate, spb := BitVec.ofNat 32 a, ppb := BitVec.ofNat 32 b } := rfl
@[simp] theorem State.storeProfile_txlen (a b : Nat) : (s.storeProfile a b).txlen = s.txlen := rfl
@[simp] theorem State.storeProfile_txbuf (a b : Nat) : (s.storeProfile a b).txbuf = s.txbuf := rfl
@[simp] theorem State.storeProfile_line (a b : Nat) : (s.storeProfile a b).line = s.line := rfl
@[simp] theorem State.storeProfile_dec (a b : Nat) : (s.storeProfile a b).dec = s.dec := rfl
@[simp] theorem State.storeProfile_rxLog (a b : Nat) : (s.storeProfile a b).rxLog = s.rxLog := rfl
@[simp] theorem State.storeProfile_lineOut (a b : Nat) : (s.storeProfile a b).lineOut = s.lineOut := rfl
@[simp] theorem State.storeProfile_samp (a b : Nat) : (s.storeProfile a b).samp = s.samp := rfl
@[simp] theorem State.storeProfile_rxOut (a b : Nat) : (s.storeProfile a b).rxOut = s.rxOut := rfl
@[simp] theorem State.storeProfile_rsp (a b : Nat) : (s.storeProfile a b).rsp = s.rsp := rfl

/-! ### `State.pushLine` -/

@[simp] theorem State.pushLine_cfg (bits : List Bit) : (s.pushLine bits).cfg = s.cfg := rfl
@[simp] theorem State.pushLine_cmd (bits : List Bit) : (s.pushLine bits).cmd = s.cmd := rfl
@[simp] theorem State.pushLine_params (bits : List Bit) : (s.pushLine bits).params = s.params := rfl
@[simp] theorem State.pushLine_status (bits : List Bit) : (s.pushLine bits).status = s.status := rfl
@[simp] theorem State.pushLine_profile (bits : List Bit) : (s.pushLine bits).profile = s.profile := rfl
@[simp] theorem State.pushLine_txlen (bits : List Bit) : (s.pushLine bits).txlen = s.txlen := rfl
@[simp] theorem State.pushLine_txbuf (bits : List Bit) : (s.pushLine bits).txbuf = s.txbuf := rfl
@[simp] theorem State.pushLine_line (bits : List Bit) : (s.pushLine bits).line = s.line ++ bits := rfl
@[simp] theorem State.pushLine_dec (bits : List Bit) : (s.pushLine bits).dec = s.dec := rfl
@[simp] theorem State.pushLine_rxLog (bits : List Bit) : (s.pushLine bits).rxLog = s.rxLog := rfl
@[simp] theorem State.pushLine_lineOut (bits : List Bit) : (s.pushLine bits).lineOut = s.lineOut ++ bits := rfl
@[simp] theorem State.pushLine_samp (bits : List Bit) : (s.pushLine bits).samp = s.samp := rfl
@[simp] theorem State.pushLine_rxOut (bits : List Bit) : (s.pushLine bits).rxOut = s.rxOut := rfl
@[simp] theorem State.pushLine_rsp (bits : List Bit) : (s.pushLine bits).rsp = s.rsp := rfl

/-! ### `State.emitSamp` -/

@[simp] theorem State.emitSamp_cfg (xs : List Sample) : (s.emitSamp xs).cfg = s.cfg := rfl
@[simp] theorem State.emitSamp_cmd (xs : List Sample) : (s.emitSamp xs).cmd = s.cmd := rfl
@[simp] theorem State.emitSamp_params (xs : List Sample) : (s.emitSamp xs).params = s.params := rfl
@[simp] theorem State.emitSamp_status (xs : List Sample) : (s.emitSamp xs).status = s.status := rfl
@[simp] theorem State.emitSamp_profile (xs : List Sample) : (s.emitSamp xs).profile = s.profile := rfl
@[simp] theorem State.emitSamp_txlen (xs : List Sample) : (s.emitSamp xs).txlen = s.txlen := rfl
@[simp] theorem State.emitSamp_txbuf (xs : List Sample) : (s.emitSamp xs).txbuf = s.txbuf := rfl
@[simp] theorem State.emitSamp_line (xs : List Sample) : (s.emitSamp xs).line = s.line := rfl
@[simp] theorem State.emitSamp_dec (xs : List Sample) : (s.emitSamp xs).dec = s.dec := rfl
@[simp] theorem State.emitSamp_rxLog (xs : List Sample) : (s.emitSamp xs).rxLog = s.rxLog := rfl
@[simp] theorem State.emitSamp_lineOut (xs : List Sample) : (s.emitSamp xs).lineOut = s.lineOut := rfl
@[simp] theorem State.emitSamp_samp (xs : List Sample) : (s.emitSamp xs).samp = s.samp ++ s.quantise xs := rfl
@[simp] theorem State.emitSamp_rxOut (xs : List Sample) : (s.emitSamp xs).rxOut = s.rxOut := rfl
@[simp] theorem State.emitSamp_rsp (xs : List Sample) : (s.emitSamp xs).rsp = s.rsp := rfl

/-! ### `State.emitRsp` -/

@[simp] theorem State.emitRsp_cfg (v : Word) : (s.emitRsp v).cfg = s.cfg := rfl
@[simp] theorem State.emitRsp_cmd (v : Word) : (s.emitRsp v).cmd = s.cmd := rfl
@[simp] theorem State.emitRsp_params (v : Word) : (s.emitRsp v).params = s.params := rfl
@[simp] theorem State.emitRsp_status (v : Word) : (s.emitRsp v).status = s.status := rfl
@[simp] theorem State.emitRsp_profile (v : Word) : (s.emitRsp v).profile = s.profile := rfl
@[simp] theorem State.emitRsp_txlen (v : Word) : (s.emitRsp v).txlen = s.txlen := rfl
@[simp] theorem State.emitRsp_txbuf (v : Word) : (s.emitRsp v).txbuf = s.txbuf := rfl
@[simp] theorem State.emitRsp_line (v : Word) : (s.emitRsp v).line = s.line := rfl
@[simp] theorem State.emitRsp_dec (v : Word) : (s.emitRsp v).dec = s.dec := rfl
@[simp] theorem State.emitRsp_rxLog (v : Word) : (s.emitRsp v).rxLog = s.rxLog := rfl
@[simp] theorem State.emitRsp_lineOut (v : Word) : (s.emitRsp v).lineOut = s.lineOut := rfl
@[simp] theorem State.emitRsp_samp (v : Word) : (s.emitRsp v).samp = s.samp := rfl
@[simp] theorem State.emitRsp_rxOut (v : Word) : (s.emitRsp v).rxOut = s.rxOut := rfl
@[simp] theorem State.emitRsp_rsp (v : Word) : (s.emitRsp v).rsp = s.rsp ++ [v] := rfl

/-! ### `State.emitRx` -/

@[simp] theorem State.emitRx_cfg (o : Option CodeUnit) : (s.emitRx o).cfg = s.cfg := by cases o <;> rfl
@[simp] theorem State.emitRx_cmd (o : Option CodeUnit) : (s.emitRx o).cmd = s.cmd := by cases o <;> rfl
@[simp] theorem State.emitRx_params (o : Option CodeUnit) : (s.emitRx o).params = s.params := by cases o <;> rfl
@[simp] theorem State.emitRx_status (o : Option CodeUnit) : (s.emitRx o).status = s.status := by cases o <;> rfl
@[simp] theorem State.emitRx_profile (o : Option CodeUnit) : (s.emitRx o).profile = s.profile := by cases o <;> rfl
@[simp] theorem State.emitRx_txlen (o : Option CodeUnit) : (s.emitRx o).txlen = s.txlen := by cases o <;> rfl
@[simp] theorem State.emitRx_txbuf (o : Option CodeUnit) : (s.emitRx o).txbuf = s.txbuf := by cases o <;> rfl
@[simp] theorem State.emitRx_line (o : Option CodeUnit) : (s.emitRx o).line = s.line := by cases o <;> rfl
@[simp] theorem State.emitRx_dec (o : Option CodeUnit) : (s.emitRx o).dec = s.dec := by cases o <;> rfl
@[simp] theorem State.emitRx_rxLog (o : Option CodeUnit) : (s.emitRx o).rxLog = s.rxLog ++ o.toList := by
  cases o <;> simp [State.emitRx]
@[simp] theorem State.emitRx_lineOut (o : Option CodeUnit) : (s.emitRx o).lineOut = s.lineOut := by cases o <;> rfl
@[simp] theorem State.emitRx_samp (o : Option CodeUnit) : (s.emitRx o).samp = s.samp := by cases o <;> rfl
@[simp] theorem State.emitRx_rxOut (o : Option CodeUnit) : (s.emitRx o).rxOut = s.rxOut ++ o.toList := by
  cases o <;> simp [State.emitRx]
@[simp] theorem State.emitRx_rsp (o : Option CodeUnit) : (s.emitRx o).rsp = s.rsp := by cases o <;> rfl

/-! ### The flags -/

@[simp] theorem Status.set_pvalid (f : RefusalFlag) (st : Status) : (st.set f).pvalid = st.pvalid := by cases f <;> rfl
@[simp] theorem Status.set_cfgerr (f : RefusalFlag) (st : Status) : (st.set f).cfgerr = st.cfgerr := by cases f <;> rfl

/-- A refusal flag after a refusal: set if it is the one refused, else as before. -/
theorem Status.get_set (f g : RefusalFlag) (st : Status) :
    (st.set f).get g = (st.get g || decide (f = g)) := by
  cases f <;> cases g <;> simp [Status.set, Status.get]

/-! ### Reset -/

@[simp] theorem State.resetWith_cfg (c : Config) : (State.resetWith c).cfg = c := rfl
@[simp] theorem State.resetWith_cmd (c : Config) : (State.resetWith c).cmd = [] := rfl
@[simp] theorem State.resetWith_dec (c : Config) : (State.resetWith c).dec = Decoder.reset := rfl
@[simp] theorem State.resetWith_rxLog (c : Config) : (State.resetWith c).rxLog = [] := rfl

end Sys2Proof.Machine
end

