-- ==== Sys2Proof/Laws/Exec.lean ====
section
/-! SUPPORT. What each meaning can do, said once: the provers cite these instead of unfolding the meanings. -/

namespace Sys2Proof.Machine

/-! ### Registers -/

/-- A parameter register write changes `params` only. -/
theorem State.writeReg_eq_some {s t : State} {sel : Sel} {v : Word} (h : s.writeReg sel v = some t) :
    t = { s with params := t.params } ∧ sel.writable = true := by
  cases sel <;> cases h <;> exact ⟨rfl, rfl⟩

/-- The selectors `SETP` may not write. -/
theorem State.writeReg_eq_none {s : State} {sel : Sel} {v : Word} (h : s.writeReg sel v = none) :
    sel.writable = false := by
  cases sel <;> first | rfl | cases h

/-- Which selectors have a value. -/
theorem State.readReg_isSome (s : State) (sel : Sel) : (s.readReg sel).isSome = !sel.reserved := by
  cases sel <;> rfl

/-- A written parameter register reads as written, every other register as before. -/
theorem State.readReg_writeReg {s t : State} {sel : Sel} {v : Word} (h : s.writeReg sel v = some t) (sel' : Sel) :
    t.readReg sel' = if sel' = sel then some v else s.readReg sel' := by
  cases sel <;> cases h <;> cases sel' <;> rfl

/-! ### The meanings -/

/-- What `SETP` can do. -/
theorem execSetp_cases (sel : Sel) (v : Word) (s : State) :
    (sel.writable = true ∧ ∃ t, s.writeReg sel v = some t ∧ exec (.setp sel v) s = .next t) ∨
    (sel.writable = false ∧ exec (.setp sel v) s = .next (s.refuse .illcmd)) := by
  cases sel <;> first
    | exact .inl ⟨rfl, _, rfl, rfl⟩
    | exact .inr ⟨rfl, rfl⟩

/-- What `GETP` can do. -/
theorem execGetp_cases (sel : Sel) (s : State) :
    (∃ v, s.readReg sel = some v ∧ sel.reserved = false ∧ exec (.getp sel) s = .next (s.emitRsp v)) ∨
    (sel.reserved = true ∧ exec (.getp sel) s = .next ((s.refuse .illcmd).emitRsp 0)) := by
  cases sel <;> first
    | exact .inl ⟨_, rfl, rfl, rfl⟩
    | exact .inr ⟨rfl, rfl⟩

/-- When the profile derivation succeeds, and with what (R112, R113). -/
theorem deriveProfile_cases (sr tb tc : Nat) :
    (1 ≤ tb ∧ tb ≤ sr ∧ sr ≤ tc * (sr / tb) ∧ deriveProfile sr tb tc = some (sr / tb, tc * (sr / tb) / sr)) ∨
    ((tb = 0 ∨ sr < tb ∨ tc * (sr / tb) < sr) ∧ deriveProfile sr tb tc = none) := by
  unfold deriveProfile samplesPerBit periodsPerBit
  split
  · next h => exact .inr ⟨.inl h, rfl⟩
  · next h =>
    have htb : 0 < tb := by omega
    split
    · next h1 => exact .inr ⟨.inr (.inl ((Nat.div_lt_iff_lt_mul htb).1 h1 |>.trans_eq (by omega))), rfl⟩
    · next h1 =>
      have hle : tb ≤ sr := by
        by_contra hlt
        exact h1 (by rw [Nat.div_eq_of_lt (by omega)]; omega)
      have hsr : 0 < sr := by omega
      split
      · next h2 => exact .inr ⟨.inr (.inr (by simpa using (Nat.div_lt_iff_lt_mul hsr).1 h2)), rfl⟩
      · next h2 =>
        refine .inl ⟨htb, hle, ?_, rfl⟩
        by_contra hlt
        exact h2 (by rw [Nat.div_eq_of_lt (by omega)]; omega)

/-- What `DERIVE` can do. -/
theorem execDerive_cases (s : State) :
    (1 ≤ s.params.tbps.toNat ∧ s.params.tbps.toNat ≤ s.params.srate.toNat ∧
      s.params.srate.toNat ≤ s.params.tcar.toNat * (s.params.srate.toNat / s.params.tbps.toNat) ∧
      exec .derive s = .next (s.storeProfile (s.params.srate.toNat / s.params.tbps.toNat)
        (s.params.tcar.toNat * (s.params.srate.toNat / s.params.tbps.toNat) / s.params.srate.toNat))) ∨
    ((s.params.tbps.toNat = 0 ∨ s.params.srate.toNat < s.params.tbps.toNat ∨
      s.params.tcar.toNat * (s.params.srate.toNat / s.params.tbps.toNat) < s.params.srate.toNat) ∧
      exec .derive s = .next s.configurationError) := by
  simp only [exec, execDerive]
  rcases deriveProfile_cases s.params.srate.toNat s.params.tbps.toNat s.params.tcar.toNat with
    ⟨h1, h2, h3, h⟩ | ⟨h1, h⟩
  · exact .inl ⟨h1, h2, h3, by rw [h]⟩
  · exact .inr ⟨h1, by rw [h]⟩

/-- What `TXPUSH` can do. -/
theorem execTxpush_cases (u : CodeUnit) (s : State) :
    (s.txlen.toNat = s.cfg.txbufSize ∧ exec (.txpush u) s = .next (s.refuse .txovf)) ∨
    (s.txlen.toNat < s.cfg.txbufSize ∧
      exec (.txpush u) s =
        .next { s with txbuf := Memory.write s.txbuf s.txlen.toNat u, txlen := s.txlen + 1 }) ∨
    (s.cfg.txbufSize < s.txlen.toNat ∧ ∃ f, exec (.txpush u) s = .fault f) := by
  simp only [exec, execTxpush]
  split
  · exact .inl ⟨‹_›, rfl⟩
  · next h =>
    rcases s.memWrite_cases s.txlen.toNat u with ⟨h1, h2⟩ | ⟨h1, h2⟩
    · exact .inr (.inl ⟨h1, by rw [h2]⟩)
    · exact .inr (.inr ⟨by omega, _, by rw [h2]⟩)

/-- What `ENCODE` can do, with the text in index order. -/
theorem execEncode_cases (s : State) :
    (s.params.repeatCount = 0 ∧ exec .encode s = .next (s.refuse .badarg)) ∨
    (s.params.repeatCount ≠ 0 ∧ s.cfg.txbufSize < s.txlen.toNat ∧ ∃ f, exec .encode s = .fault f) ∨
    (s.params.repeatCount ≠ 0 ∧ s.txlen.toNat ≤ s.cfg.txbufSize ∧
      ∃ text, text = (List.range s.txlen.toNat).map (Memory.read s.txbuf) ∧
        ((s.lineRoom (preSequence s.params.preamble.toNat s.params.repeatCount.toNat text).length = true ∧
            exec .encode s =
              .next (s.pushLine (lineBits s.params.preamble.toNat s.params.repeatCount.toNat text))) ∨
          (s.lineRoom (preSequence s.params.preamble.toNat s.params.repeatCount.toNat text).length = false ∧
            exec .encode s = .next (s.refuse .lineovf)))) := by
  simp only [exec, execEncode]
  split
  · exact .inl ⟨‹_›, rfl⟩
  · next h =>
    rcases s.readText_cases with ⟨h1, h2⟩ | ⟨h1, f, h2⟩
    · refine .inr (.inr ⟨h, h1, _, rfl, ?_⟩)
      rw [h2]
      cases hr : s.lineRoom (preSequence s.params.preamble.toNat s.params.repeatCount.toNat
        ((List.range s.txlen.toNat).map (Memory.read s.txbuf))).length
      · exact .inr ⟨rfl, by simp [hr]⟩
      · exact .inl ⟨rfl, by simp [hr]⟩
    · exact .inr (.inl ⟨h, h1, f, by rw [h2]⟩)

/-- What `LINEPUSH` can do. -/
theorem execLinepush_cases (b : Bit) (s : State) :
    (s.cfg.lineDepth ≠ some s.line.length ∧ exec (.linepush b) s = .next (s.pushLine [b])) ∨
    (s.cfg.lineDepth = some s.line.length ∧ exec (.linepush b) s = .next (s.refuse .lineovf)) := by
  simp only [exec, execLinepush, State.lineFull]
  by_cases h : s.cfg.lineDepth = some s.line.length
  · exact .inr ⟨h, by simp [h]⟩
  · exact .inl ⟨h, by simp [h]⟩

/-- What `SYNTH` can do. -/
theorem execSynth_cases (s : State) :
    (s.status.pvalid = true ∧
      exec .synth s =
        .next (State.emitSamp { s with line := [] } (synthSamples s.profile s.params.gapms s.line))) ∨
    (s.status.pvalid = false ∧ exec .synth s = .next (s.refuse .noprof)) := by
  simp only [exec, execSynth]
  cases s.status.pvalid
  · exact .inr ⟨rfl, rfl⟩
  · exact .inl ⟨rfl, rfl⟩

/-- What `RXBIT` does. -/
theorem execRxbit_eq (raw : Bit) (s : State) :
    exec (.rxbit raw) s =
      .next { s with
        dec := (s.dec.rxStep raw).1
        rxOut := s.rxOut ++ (s.dec.rxStep raw).2.toList
        rxLog := s.rxLog ++ (s.dec.rxStep raw).2.toList } := by
  simp only [exec, execRxbit, State.emitRx]
  split <;> simp [*]

/-! ### All of them at once -/

/-- Every way in which one instruction answers a next state, one constructor per way, with its guard. -/
inductive Transition : Instr → State → State → Prop where
  | nop (s : State) : Transition .nop s s
  | setp (s t : State) (sel : Sel) (v : Word) (hw : sel.writable = true) (ht : s.writeReg sel v = some t) :
      Transition (.setp sel v) s t
  | setpRefused (s : State) (sel : Sel) (v : Word) (hw : sel.writable = false) :
      Transition (.setp sel v) s (s.refuse .illcmd)
  | getp (s : State) (sel : Sel) (v : Word) (hr : sel.reserved = false) (hv : s.readReg sel = some v) :
      Transition (.getp sel) s (s.emitRsp v)
  | getpRefused (s : State) (sel : Sel) (hr : sel.reserved = true) :
      Transition (.getp sel) s ((s.refuse .illcmd).emitRsp 0)
  | derive (s : State) (spb ppb : Nat)
      (h : deriveProfile s.params.srate.toNat s.params.tbps.toNat s.params.tcar.toNat = some (spb, ppb)) :
      Transition .derive s (s.storeProfile spb ppb)
  | deriveFailed (s : State)
      (h : deriveProfile s.params.srate.toNat s.params.tbps.toNat s.params.tcar.toNat = none) :
      Transition .derive s s.configurationError
  | txclr (s : State) : Transition .txclr s { s with txlen := 0 }
  | txpush (s : State) (u : CodeUnit) (h : s.txlen.toNat < s.cfg.txbufSize) :
      Transition (.txpush u) s { s with txbuf := Memory.write s.txbuf s.txlen.toNat u, txlen := s.txlen + 1 }
  | txpushRefused (s : State) (u : CodeUnit) (h : s.txlen.toNat = s.cfg.txbufSize) :
      Transition (.txpush u) s (s.refuse .txovf)
  | encode (s : State) (text : List CodeUnit) (hr : s.params.repeatCount ≠ 0) (hl : s.txlen.toNat ≤ s.cfg.txbufSize)
      (ht : text = (List.range s.txlen.toNat).map (Memory.read s.txbuf))
      (h : s.lineRoom (preSequence s.params.preamble.toNat s.params.repeatCount.toNat text).length = true) :
      Transition .encode s (s.pushLine (lineBits s.params.preamble.toNat s.params.repeatCount.toNat text))
  | encodeBadArg (s : State) (hr : s.params.repeatCount = 0) : Transition .encode s (s.refuse .badarg)
  | encodeNoRoom (s : State) (text : List CodeUnit) (hr : s.params.repeatCount ≠ 0)
      (hl : s.txlen.toNat ≤ s.cfg.txbufSize) (ht : text = (List.range s.txlen.toNat).map (Memory.read s.txbuf))
      (h : s.lineRoom (preSequence s.params.preamble.toNat s.params.repeatCount.toNat text).length = false) :
      Transition .encode s (s.refuse .lineovf)
  | lineclr (s : State) : Transition .lineclr s { s with line := [] }
  | linepush (s : State) (b : Bit) (h : s.cfg.lineDepth ≠ some s.line.length) :
      Transition (.linepush b) s (s.pushLine [b])
  | linepushRefused (s : State) (b : Bit) (h : s.cfg.lineDepth = some s.line.length) :
      Transition (.linepush b) s (s.refuse .lineovf)
  | synth (s : State) (h : s.status.pvalid = true) :
      Transition .synth s (State.emitSamp { s with line := [] } (synthSamples s.profile s.params.gapms s.line))
  | synthRefused (s : State) (h : s.status.pvalid = false) : Transition .synth s (s.refuse .noprof)
  | rxbit (s : State) (raw : Bit) :
      Transition (.rxbit raw) s { s with
        dec := (s.dec.rxStep raw).1
        rxOut := s.rxOut ++ (s.dec.rxStep raw).2.toList
        rxLog := s.rxLog ++ (s.dec.rxStep raw).2.toList }
  | rxreset (s : State) : Transition .rxreset s { s with dec := Decoder.reset, rxLog := [] }
  | reservedC (s : State) : Transition .reservedC s (s.refuse .illcmd)
  | reservedD (s : State) : Transition .reservedD s (s.refuse .illcmd)
  | reservedE (s : State) : Transition .reservedE s (s.refuse .illcmd)
  | reservedF (s : State) : Transition .reservedF s (s.refuse .illcmd)

/-- The inversion of `exec`: a next state comes about in one of these ways. -/
theorem exec_transition {i : Instr} {s t : State} (h : exec i s = .next t) : Transition i s t := by
  cases i with
  | nop => cases h; exact .nop _
  | setp sel v =>
    obtain ⟨hw, u, hu, he⟩ | ⟨hw, he⟩ := execSetp_cases sel v s <;> rw [he] at h <;> cases h
    · exact .setp _ _ _ _ hw hu
    · exact .setpRefused _ _ _ hw
  | getp sel =>
    obtain ⟨v, hv, hr, he⟩ | ⟨hr, he⟩ := execGetp_cases sel s <;> rw [he] at h <;> cases h
    · exact .getp _ _ _ hr hv
    · exact .getpRefused _ _ hr
  | derive =>
    simp only [exec, execDerive] at h
    split at h <;> cases h
    · exact .deriveFailed _ ‹_›
    · exact .derive _ _ _ ‹_›
  | txclr => cases h; exact .txclr _
  | txpush u =>
    obtain ⟨h1, he⟩ | ⟨h1, he⟩ | ⟨h1, f, he⟩ := execTxpush_cases u s <;> rw [he] at h <;> cases h
    · exact .txpushRefused _ _ h1
    · exact .txpush _ _ h1
  | encode =>
    obtain ⟨h1, he⟩ | ⟨_, h1, f, he⟩ | ⟨h1, h2, text, h3, ⟨hr, he⟩ | ⟨hr, he⟩⟩ := execEncode_cases s <;> rw [he] at h <;> cases h
    · exact .encodeBadArg _ h1
    · exact .encode _ _ h1 h2 h3 hr
    · exact .encodeNoRoom _ _ h1 h2 h3 hr
  | lineclr => cases h; exact .lineclr _
  | linepush b =>
    obtain ⟨hr, he⟩ | ⟨hr, he⟩ := execLinepush_cases b s <;> rw [he] at h <;> cases h
    · exact .linepush _ _ hr
    · exact .linepushRefused _ _ hr
  | synth =>
    obtain ⟨hr, he⟩ | ⟨hr, he⟩ := execSynth_cases s <;> rw [he] at h <;> cases h
    · exact .synth _ hr
    · exact .synthRefused _ hr
  | rxbit raw => rw [execRxbit_eq] at h; cases h; exact .rxbit _ _
  | rxreset => cases h; exact .rxreset _
  | reservedC => cases h; exact .reservedC _
  | reservedD => cases h; exact .reservedD _
  | reservedE => cases h; exact .reservedE _
  | reservedF => cases h; exact .reservedF _

end Sys2Proof.Machine
end

