-- ==== Sys2Proof/Laws/Decoder.lean ====
section
/-! SUPPORT. A run of RXBIT commands as a run of the decoder alone (43_decoder.md R162). -/

namespace Sys2Proof.Machine

/-- The registers after a run of line bits, and the bytes it emits. -/
def Decoder.rxRun : Decoder → List Bit → Decoder × List CodeUnit
  | d, [] => (d, [])
  | d, b :: bs => ((Decoder.rxRun (d.rxStep b).1 bs).1, (d.rxStep b).2.toList ++ (Decoder.rxRun (d.rxStep b).1 bs).2)

/-- A run in two parts. -/
theorem Decoder.rxRun_append (d : Decoder) (a b : List Bit) :
    d.rxRun (a ++ b) = (((d.rxRun a).1.rxRun b).1, (d.rxRun a).2 ++ ((d.rxRun a).1.rxRun b).2) := by
  induction a generalizing d with
  | nil => simp [Decoder.rxRun]
  | cons x a ih => simp [Decoder.rxRun, ih]

/-- One `RXBIT` per bit runs the decoder and appends its bytes to `rxLog` and `RXOUT`. -/
theorem execAll_rxbits (bits : List Bit) (s : State) :
    execAll (bits.map .rxbit) s =
      .next { s with
        dec := (s.dec.rxRun bits).1
        rxLog := s.rxLog ++ (s.dec.rxRun bits).2
        rxOut := s.rxOut ++ (s.dec.rxRun bits).2 } := by
  induction bits generalizing s with
  | nil => simp [execAll, Decoder.rxRun]
  | cons b bs ih =>
    simp only [List.map_cons, execAll, execRxbit_eq, ih, Decoder.rxRun, List.append_assoc]

/-- The recovered bit undoes one step of the differential transform (R161, R89). -/
theorem Decoder.recovered_differential (d : Decoder) (b : Bit) : d.recovered (b ^^ d.lastRaw) = b := by
  simp only [Decoder.recovered]
  cases b <;> cases d.lastRaw <;> rfl

end Sys2Proof.Machine
end

