-- ==== Sys2Proof/Laws/Encoder.lean ====
section
/-! SUPPORT. What the stages of the frame encoder do (42_encoder.md): lengths and the stuffing of one bit. -/

namespace Sys2Proof.Machine

/-- What the stuffing stage does with one bit (R144). -/
theorem stuffBit_cases (ones : Nat) (b : Bit) :
    (b = false ∧ stuffBit ones b = ([false], 0)) ∨
    (b = true ∧ ones = 4 ∧ stuffBit ones b = ([true, false], 0)) ∨
    (b = true ∧ ones ≠ 4 ∧ stuffBit ones b = ([true], ones + 1)) := by
  cases b
  · exact .inl ⟨rfl, rfl⟩
  · by_cases h : ones = 4
    · exact .inr (.inl ⟨rfl, h, by simp [stuffBit, h]⟩)
    · exact .inr (.inr ⟨rfl, h, by simp [stuffBit, maxOnes, h]⟩)

/-- A stretch stuffed in two parts: the count carries over. -/
theorem stuffBits_append (ones : Nat) (a b : List Bit) :
    stuffBits ones (a ++ b) =
      ((stuffBits ones a).1 ++ (stuffBits (stuffBits ones a).2 b).1, (stuffBits (stuffBits ones a).2 b).2) := by
  induction a generalizing ones with
  | nil => simp [stuffBits]
  | cons x a ih => simp [stuffBits, ih]

@[simp] theorem syncWords_zero : syncWords 0 = [] := rfl

@[simp] theorem syncWords_succ (n : Nat) : syncWords (n + 1) = sync ++ syncWords n := by
  simp [syncWords, List.replicate_succ]

@[simp] theorem length_syncWords (n : Nat) : (syncWords n).length = 8 * n := by
  induction n with
  | zero => rfl
  | succ n ih => simp [ih, sync]; omega

@[simp] theorem length_differential (level : Bit) (l : List Bit) : (differential level l).length = l.length := by
  induction l generalizing level with
  | nil => rfl
  | cons x l ih => simp [differential, ih]

/-- The differential transform of two parts: the second starts from the last level of the first. -/
theorem differential_append (level : Bit) (a b : List Bit) :
    differential level (a ++ b) =
      differential level a ++ differential ((differential level a).getLastD level) b := by
  induction a generalizing level with
  | nil => rfl
  | cons x a ih => simp only [List.cons_append, differential, ih, List.getLastD_cons]

end Sys2Proof.Machine
end

