-- ==== Sys2Proof/Laws/Encoding.lean ====
section
/-! SUPPORT. The fields of a command word: putting them together and taking them out again (30_encoding.md R93). -/

namespace Sys2Proof

/-- A command word as a number (R93). -/
theorem toNat_mkCmd (op sel : BitVec 4) (d : Word) :
    (mkCmd op sel d).toNat = op.toNat * 2 ^ 36 + sel.toNat * 2 ^ 32 + d.toNat := by
  simp only [mkCmd, BitVec.toNat_append]
  rw [← Nat.shiftLeft_add_eq_or_of_lt d.isLt, ← Nat.shiftLeft_add_eq_or_of_lt sel.isLt]
  simp only [Nat.shiftLeft_eq]
  ring

@[simp] theorem cmdOp_mkCmd (op sel : BitVec 4) (d : Word) : cmdOp (mkCmd op sel d) = op := by
  apply BitVec.eq_of_toNat_eq
  simp only [cmdOp, BitVec.extractLsb'_toNat, toNat_mkCmd, Nat.shiftRight_eq_div_pow]
  omega

@[simp] theorem cmdSel_mkCmd (op sel : BitVec 4) (d : Word) : cmdSel (mkCmd op sel d) = sel := by
  apply BitVec.eq_of_toNat_eq
  simp only [cmdSel, BitVec.extractLsb'_toNat, toNat_mkCmd, Nat.shiftRight_eq_div_pow]
  omega

@[simp] theorem cmdData_mkCmd (op sel : BitVec 4) (d : Word) : cmdData (mkCmd op sel d) = d := by
  apply BitVec.eq_of_toNat_eq
  simp only [cmdData, BitVec.extractLsb'_toNat, toNat_mkCmd, Nat.shiftRight_eq_div_pow]
  omega

/-- The fields of a word put together again are the word. -/
theorem mkCmd_fields (w : CmdWord) : mkCmd (cmdOp w) (cmdSel w) (cmdData w) = w := by
  apply BitVec.eq_of_toNat_eq
  simp only [toNat_mkCmd, cmdOp, cmdSel, cmdData, BitVec.extractLsb'_toNat, Nat.shiftRight_eq_div_pow]
  omega

@[simp] theorem selOfCode_selCode (sel : Sel) : selOfCode (selCode sel) = sel := by cases sel <;> rfl

@[simp] theorem dataUnit_setWidth (u : CodeUnit) : dataUnit (u.setWidth 32) = u := by
  apply BitVec.eq_of_toNat_eq
  simp only [dataUnit, BitVec.extractLsb'_toNat, BitVec.toNat_setWidth, Nat.shiftRight_zero]
  omega

@[simp] theorem dataBit_setWidth (b : Bit) : dataBit ((BitVec.ofBool b).setWidth 32) = b := by cases b <;> rfl

/-- The sixteen values of the field `op`. -/
theorem opNibble_cases (op : BitVec 4) :
    op = 0x0 ∨ op = 0x1 ∨ op = 0x2 ∨ op = 0x3 ∨ op = 0x4 ∨ op = 0x5 ∨ op = 0x6 ∨ op = 0x7 ∨
    op = 0x8 ∨ op = 0x9 ∨ op = 0xA ∨ op = 0xB ∨ op = 0xC ∨ op = 0xD ∨ op = 0xE ∨ op = 0xF := by
  revert op
  decide

end Sys2Proof
end

