-- ==== Sys2Proof/Laws/PerInstr.lean ====
section
/-! SUPPORT. A statement for all instructions, one lemma per constructor: the canonical word of an instruction selects the
row of the opcode map that has its mnemonic (30_encoding.md R94, R101). -/

namespace Sys2Proof.Laws

/-- The canonical word selects the instruction's own row, and no other. -/
def CanonicalRow.Statement (i : Instr) : Prop :=
  ∀ r ∈ opcodeTable, r.selects (encode i) = true ↔ r.mnemonic = mnemonic i

/-- The fixed bits of a word put together from its fields: only `op` decides which row it selects. -/
theorem mkCmd_and_opMask (op sel : BitVec 4) (data : Word) :
    mkCmd op sel data &&& 0xF000000000 = mkCmd op 0 0 := by
  have hop : op &&& 0xF#4 = op := BitVec.and_allOnes
  have h : (op ++ sel ++ data) &&& (0xF#4 ++ 0#4 ++ 0#32) = op ++ 0#4 ++ 0#32 := by
    rw [BitVec.and_append, BitVec.and_append, hop, BitVec.and_zero, BitVec.and_zero]
  exact h

/-- Which rows a word put together from its fields selects. -/
theorem selects_mkCmd (op sel : BitVec 4) (data : Word) :
    ∀ r ∈ opcodeTable, r.selects (mkCmd op sel data) = r.selects (mkCmd op 0 0) := by
  intro r hr
  have hm : r.mask = 0xF000000000 := by
    revert r
    decide
  simp only [OpcodeRow.selects, hm, mkCmd_and_opMask]

theorem CanonicalRow.nop : CanonicalRow.Statement .nop := by unfold CanonicalRow.Statement; decide
theorem CanonicalRow.setp (sel : Sel) (data : Word) : CanonicalRow.Statement (.setp sel data) := by
  intro r hr
  simp only [encode, selects_mkCmd _ _ _ r hr, mnemonic]
  revert r
  decide
theorem CanonicalRow.getp (sel : Sel) : CanonicalRow.Statement (.getp sel) := by
  intro r hr
  simp only [encode, selects_mkCmd _ _ _ r hr, mnemonic]
  revert r
  decide
theorem CanonicalRow.derive : CanonicalRow.Statement .derive := by unfold CanonicalRow.Statement; decide
theorem CanonicalRow.txclr : CanonicalRow.Statement .txclr := by unfold CanonicalRow.Statement; decide
theorem CanonicalRow.txpush (u : CodeUnit) : CanonicalRow.Statement (.txpush u) := by
  intro r hr
  simp only [encode, selects_mkCmd _ _ _ r hr, mnemonic]
  revert r
  decide
theorem CanonicalRow.encode : CanonicalRow.Statement .encode := by unfold CanonicalRow.Statement; decide
theorem CanonicalRow.lineclr : CanonicalRow.Statement .lineclr := by unfold CanonicalRow.Statement; decide
theorem CanonicalRow.linepush (b : Bit) : CanonicalRow.Statement (.linepush b) := by
  unfold CanonicalRow.Statement; revert b; decide
theorem CanonicalRow.synth : CanonicalRow.Statement .synth := by unfold CanonicalRow.Statement; decide
theorem CanonicalRow.rxbit (b : Bit) : CanonicalRow.Statement (.rxbit b) := by
  unfold CanonicalRow.Statement; revert b; decide
theorem CanonicalRow.rxreset : CanonicalRow.Statement .rxreset := by unfold CanonicalRow.Statement; decide
theorem CanonicalRow.reservedC : CanonicalRow.Statement .reservedC := by unfold CanonicalRow.Statement; decide
theorem CanonicalRow.reservedD : CanonicalRow.Statement .reservedD := by unfold CanonicalRow.Statement; decide
theorem CanonicalRow.reservedE : CanonicalRow.Statement .reservedE := by unfold CanonicalRow.Statement; decide
theorem CanonicalRow.reservedF : CanonicalRow.Statement .reservedF := by unfold CanonicalRow.Statement; decide

end Sys2Proof.Laws
end

