-- ==== Sys2Proof/Laws/Waveform.lean ====
section
/-! SUPPORT. What one held symbol and the gap computation give (44_waveform.md R193 to R196). -/

namespace Sys2Proof.Machine

/-- A symbol held for `n` samples, starting at sample number `i` of the signal part. -/
theorem holdSymbol_eq (spb ppb : Nat) (sym : Bit) (n i : Nat) :
    holdSymbol spb ppb sym n (ppb * i % spb) =
      ((List.range n).map (fun k => .carrier sym (ppb * (i + k) % spb) spb), ppb * (i + n) % spb) := by
  induction n generalizing i with
  | zero => rfl
  | succ n ih =>
    have h : (ppb * i % spb + ppb) % spb = ppb * (i + 1) % spb := by
      rw [Nat.mod_add_mod, Nat.mul_add, Nat.mul_one]
    simp only [holdSymbol, h, ih, List.range_succ_eq_map, List.map_cons, List.map_map, Nat.add_zero, Prod.mk.injEq,
      List.cons.injEq, true_and]
    exact ⟨List.map_congr_left fun k _ => by rw [Function.comp, Nat.add_assoc, Nat.add_comm 1 k], by
      rw [Nat.add_assoc, Nat.add_comm 1 n]⟩

/-- The gap length in thousandths of a sample: never more than half a sample off, and even on a tie. -/
theorem gapSamples_spec (psrate gapms : Nat) :
    1000 * gapSamples psrate gapms ≤ psrate * gapms + 500 ∧ psrate * gapms ≤ 1000 * gapSamples psrate gapms + 500 ∧
    (psrate * gapms % 1000 = 500 → gapSamples psrate gapms % 2 = 0) := by
  unfold gapSamples
  simp only
  split <;> omega

/-- The magnitude of a sample. -/
theorem Sample.abs_value_le_one (x : Sample) : |x.value| ≤ 1 := by
  cases x with
  | gap => simp [Sample.value]
  | carrier sym acc spb =>
    have h := Real.abs_cos_le_one (2 * Real.pi * acc / spb)
    cases sym <;> simpa [Sample.value, symbolValue, abs_mul] using h

/-- The identity quantiser leaves a value as it is. -/
@[simp] theorem Quantiser.identity_apply (v : ℝ) : Quantiser.apply .identity v = v := rfl

@[simp] theorem QSample.value_mk (q : Quantiser) (x : Sample) : (QSample.mk q x).value = q.apply x.value := rfl

/-! ### Passing samples through `Q` -/

@[simp] theorem State.quantise_nil (s : State) : s.quantise [] = [] := rfl

@[simp] theorem State.length_quantise (s : State) (xs : List Sample) : (s.quantise xs).length = xs.length := by
  simp [State.quantise]

/-- Quantising two stretches of samples. -/
theorem State.quantise_append (s : State) (a b : List Sample) : s.quantise (a ++ b) = s.quantise a ++ s.quantise b := by
  simp [State.quantise]

/-- The elements that quantising gives: the machine's own `Q`, and the sample it was applied to. -/
theorem State.mem_quantise {s : State} {xs : List Sample} {e : QSample} (h : e ∈ s.quantise xs) :
    e.quantiser = s.cfg.quantiser ∧ e.exact ∈ xs := by
  obtain ⟨x, hx, rfl⟩ := List.mem_map.1 h
  exact ⟨rfl, hx⟩

/-- Which element quantising puts at a place. -/
theorem State.getElem?_quantise (s : State) (xs : List Sample) (n : Nat) :
    (s.quantise xs)[n]? = xs[n]?.map (fun x => ⟨s.cfg.quantiser, x⟩) := by
  simp [State.quantise]

/-- What a reader sees of quantised samples. -/
theorem State.map_value_quantise (s : State) (xs : List Sample) :
    (s.quantise xs).map QSample.value = xs.map (fun x => s.cfg.quantiser.apply x.value) := by
  simp [State.quantise]

end Sys2Proof.Machine
end

