-- ==== Sys2Proof/Tests/Slice0.lean ====
section
/-! SUPPORT. Tests on small states. Expected values are those of spec/95_test_vectors.md (the vector `V<n>` or program `P<n>`
in each comment) or worked by hand from the rule named there. The theorems `test_witness_<Name>` show, for the statement
`<Name>` of Certificates/Slice0/Obligations.lean, operands and states that meet its hypotheses. -/

open Sys2Proof Sys2Proof.Machine

namespace Sys2Proof.Tests

/-! ### Helpers -/

/-- The next state of an outcome. -/
def nextOf : Host.Outcome State Fault Refusal → Option State
  | .next t => some t
  | .fault _ => none
  | .refused _ => none

/-- The state after a sequence of instructions. -/
def after (is : List Instr) (s : State) : Option State := nextOf (execAll is s)

/-- The state after stepping once over a command word. -/
def stepWord (w : CmdWord) (s : State) : Option State := nextOf (step (s.withFetchWord 40 w.toNat))

/-- The bits of bytes, first bit as bit 7 (the notation of 95_test_vectors.md). -/
def hexBits (bytes : List Nat) : List Bit :=
  bytes.flatMap (fun v => (List.range 8).map (fun i => decide (v / 2 ^ (7 - i) % 2 = 1)))

/-- A state with a text in `TXBUF`. -/
def textState (cells : List Host.Cell) (n : Word) : State := { State.reset with txbuf := cells, txlen := n }

/-- The text "HI" loaded, two preamble words (V20). -/
def hiState : State :=
  { textState [(0, 0x48), (1, 0x49)] 2 with params := { State.reset.params with preamble := 2 } }

/-- The profile of V62, with bits in `LINE` and on `LINEOUT`. -/
def profState (gapms : Word) (bits : List Bit) : State :=
  { State.reset with
    params := { State.reset.params with gapms := gapms }
    status := { State.reset.status with pvalid := true }
    profile := { psrate := 8, spb := 4, ppb := 1 }
    line := bits
    lineOut := bits }

/-- A state with given rates. -/
def rateState (sr tb tc : Word) : State :=
  { State.reset with params := { State.reset.params with srate := sr, tbps := tb, tcar := tc } }

/-- A state with a given decoder. -/
def decState (d : Decoder) : State := { State.reset with dec := d }

/-- A decoder in Decode at a byte boundary. -/
def locked : Decoder := { Decoder.reset with mode := .decode, resumeMode := .decode, shiftBuf := 0x7E }

/-- A state with small buffers (V30 (b), (c), V66). -/
def smallState (size : Nat) (depth : Option Nat) : State :=
  State.resetWith { txbufSize := size, lineDepth := depth, quantiser := .identity }

/-! ### WellFormed: an ill-formed term for each check -/

theorem test_wf_setp_of_profile_register : Instr.wellFormed (.setp .psrate 1) = false := by decide
theorem test_wf_setp_of_status : Instr.wellFormed (.setp .status 0) = false := by decide
theorem test_wf_setp_of_reserved : Instr.wellFormed (.setp .reserved6 5) = false := by decide
theorem test_wf_getp_of_reserved : Instr.wellFormed (.getp .reserved15) = false := by decide
theorem test_wf_reserved_opcodes :
    Instr.wellFormed .reservedC = false ∧ Instr.wellFormed .reservedD = false ∧
    Instr.wellFormed .reservedE = false ∧ Instr.wellFormed .reservedF = false := by decide
theorem test_wf_accepts :
    Instr.wellFormed (.setp .gapms 10) = true ∧ Instr.wellFormed (.getp .decstate) = true ∧
    Instr.wellFormed .derive = true := by decide

/-! ### Decoding: a word for every constructor, written out field by field (R93, R94; V71, V72) -/

theorem test_decode_nop : decode 0b0000_0000_00000000_00000000_00000000_00000000 = .nop := by decide
theorem test_decode_setp : decode 0b0001_0001_00000000_00000000_00000001_00101100 = .setp .tbps 300 := by decide
theorem test_decode_getp : decode 0b0010_1110_00000000_00000000_00000000_00000000 = .getp .decstate := by decide
theorem test_decode_derive : decode 0b0011_1111_11111111_11111111_11111111_11111111 = .derive := by decide
theorem test_decode_txclr : decode 0b0100_0000_00000000_00000000_00000000_00000000 = .txclr := by decide
theorem test_decode_txpush : decode 0b0101_0000_00000000_00000000_00000001_01001000 = .txpush 0x48 := by decide
theorem test_decode_encode : decode 0b0110_0000_00000000_00000000_00000000_00000000 = .encode := by decide
theorem test_decode_lineclr : decode 0b0111_0000_00000000_00000000_00000000_00000000 = .lineclr := by decide
theorem test_decode_linepush : decode 0b1000_0000_00000000_00000000_00000000_00000001 = .linepush true := by decide
theorem test_decode_synth : decode 0b1001_0000_00000000_00000000_00000000_00000000 = .synth := by decide
theorem test_decode_rxbit : decode 0b1010_0101_11111111_11111111_11111111_11111110 = .rxbit false := by decide
theorem test_decode_rxreset : decode 0b1011_0000_00000000_00000000_00000000_00000000 = .rxreset := by decide
theorem test_decode_reserved :
    decode 0b1100_0000_00000000_00000000_00000000_00000000 = .reservedC ∧
    decode 0b1101_0000_00000000_00000000_00000000_00000000 = .reservedD ∧
    decode 0b1110_0000_00000000_00000000_00000000_00000000 = .reservedE ∧
    decode 0b1111_1111_11111111_11111111_11111111_11111111 = .reservedF := by decide
/-- V71. -/
theorem test_encode_words :
    encode (.setp .srate 44100) = 0x100000AC44 ∧ encode (.setp .gapms 10) = 0x150000000A ∧
    encode (.getp .status) = 0x2800000000 ∧ encode (.rxbit true) = 0xA000000001 := by decide
theorem test_table_word :
    decodeTableWord 40 0x5000000048 = some (.txpush 0x48) ∧ decodeTableWord 48 0x5000000048 = none := by decide

/-! ### Host commands -/

/-- V72. -/
theorem test_nop : stepWord 0x0FFFFFFFFF hiState = some hiState := by decide
/-- V71. -/
theorem test_setp : (stepWord 0x110000012C State.reset).map (·.params.tbps) = some 300 := by decide
/-- V73: `SETP STATUS, 0`. -/
theorem test_setp_refused : (stepWord 0x1800000000 State.reset).map (·.status.pack) = some 0x20 := by decide
/-- P1: `GETP TXLEN`. -/
theorem test_getp : (stepWord 0x2C00000000 hiState).map (·.rsp) = some [2] := by decide
/-- V73: `GETP 15`. -/
theorem test_getp_reserved :
    (stepWord 0x2F00000000 State.reset).map (fun t => (t.rsp, t.status.pack)) = some ([0], 0x20) := by decide
/-- V73. -/
theorem test_reservedC : (stepWord 0xC000000000 State.reset).map (·.status.pack) = some 0x20 := by decide
theorem test_reservedD : (stepWord 0xD000000000 State.reset).map (·.status.pack) = some 0x20 := by decide
theorem test_reservedE : (stepWord 0xE000000000 State.reset).map (·.status.pack) = some 0x20 := by decide
theorem test_reservedF : (stepWord 0xFFFFFFFFFF State.reset).map (·.status.pack) = some 0x20 := by decide
/-- V74. -/
theorem test_status_pack :
    Status.pack { pvalid := true, cfgerr := false, txovf := false, badarg := true, noprof := true, illcmd := true,
                  lineovf := false } = 0x39 := by decide
/-- V43. -/
theorem test_decstate_pack :
    Decoder.pack { mode := .decode, resumeMode := .decode, shiftBuf := 0b11010010, bitCnt := 6, onesCnt := 0,
                   syncRun := 0, lastRaw := false } = 0x00D2006A := by decide

/-! ### MPL -/

/-- V10 row 4. -/
theorem test_derive :
    (stepWord 0x3000000000 (rateState 44100 1200 1800)).map (fun t => (t.profile, t.status.pack)) =
      some ({ psrate := 44100, spb := 36, ppb := 1 }, 1) := by decide
/-- V12 row 7, on a machine that had a profile. -/
theorem test_derive_fails :
    (stepWord 0x3000000000 { rateState 8000 3000 2000 with
        status := { State.reset.status with pvalid := true }, profile := { psrate := 8, spb := 4, ppb := 1 } }).map
      (fun t => (t.profile, t.status.pack)) = some ({ psrate := 0, spb := 0, ppb := 0 }, 2) := by decide

/-! ### BBC -/

/-- V1. -/
theorem test_toBits : (toBits 0xA5).toList = [true, false, true, false, false, true, false, true] := by decide
/-- V2. -/
theorem test_fromBits : fromBits #v[false, true, false, false, true, false, false, false] = 0x48 := by decide

/-! ### FENC -/

/-- V30 (e): the contents of `TXBUF` stay. -/
theorem test_txclr : (stepWord 0x4000000000 hiState).map (fun t => (t.txlen, t.txbuf)) =
    some (0, [(0, 0x48), (1, 0x49)]) := by decide
/-- V30 (d). -/
theorem test_txpush : (stepWord 0x50000001FF hiState).map (fun t => (t.txlen, t.txbuf)) =
    some (3, [(0, 0x48), (1, 0x49), (2, 0xFF)]) := by decide
/-- V30 (b). -/
theorem test_txpush_refused :
    (after [.txpush 0x41, .txpush 0x42, .txpush 0x43] (smallState 2 none)).map
      (fun t => (t.txlen, t.txbuf, t.status.pack)) = some (2, [(0, 0x41), (1, 0x42)], 4) := by decide
set_option maxRecDepth 4000 in
/-- V20. -/
theorem test_encode : (stepWord 0x6000000000 hiState).map (·.line) =
    some (hexBits [0x54, 0x54, 0x54, 0x54, 0x54, 0x54, 0x54, 0x54, 0x70, 0x71, 0xAB, 0xAA]) := by decide
/-- V30 (c): the second transmission does not fit. -/
theorem test_encode_refused :
    (after [.txpush 0x41, .encode, .encode] (smallState 256 (some 100))).map
      (fun t => (t.line.length, t.lineOut.length, t.status.pack)) = some (72, 72, 0x40) := by decide
/-- V24: the count of ones runs on across code units. -/
theorem test_stuffing :
    (encodeUnits 0 0 [0xFF, 0xFF]).1 =
      [true, true, true, true, true, false, true, true, true, true, true, false, true, true, true, true, true, false,
       true] := by decide
set_option maxRecDepth 4000 in
/-- V29, first two rows: the resync word before the tenth code unit. -/
theorem test_resync :
    (preSequence 0 1 (List.replicate 9 0x41)).length = 136 ∧
    (preSequence 0 1 (List.replicate 10 0x41)).drop 120 = hexBits [0x7E, 0x41, 0x7E, 0x7F] := by decide

/-! ### FDEC -/

/-- V51: from reset. -/
theorem test_rxbit : (stepWord 0xA5FFFFFFFE State.reset).map (·.dec.pack) = some 0x00000010 := by decide
set_option maxRecDepth 8000 in
/-- V41: the 96 bits of V20. -/
theorem test_rx_hi :
    (after ((hexBits [0x54, 0x54, 0x54, 0x54, 0x54, 0x54, 0x54, 0x54, 0x70, 0x71, 0xAB, 0xAA]).map .rxbit)
      State.reset).map (fun t => (t.rxOut, t.dec.pack)) = some ([0x48, 0x49], 0x00DF0000) := by decide
/-- V45: a false lock. -/
theorem test_rx_false_lock :
    (after ([false, true, false, true, false, true, false, false, false].map .rxbit) State.reset).map (·.dec.pack) =
      some 0x00FC0011 := by decide
/-- V43, V44: `RXRESET` restores the decoder. -/
theorem test_rxreset :
    (stepWord 0xB000000000 { decState locked with rxLog := [0x48], rxOut := [0x48] }).map
      (fun t => (t.dec.pack, t.rxLog, t.rxOut)) = some (0, [], [0x48]) := by decide

/-! ### WGEN -/

/-- V66: `LINEOUT` keeps the bits. -/
theorem test_lineclr : (stepWord 0x7000000000 (profState 0 [true])).map (fun t => (t.line, t.lineOut)) =
    some ([], [true]) := by decide
theorem test_linepush : (stepWord 0x8000000001 (profState 0 [false])).map (fun t => (t.line, t.lineOut)) =
    some ([false, true], [false, true]) := by decide
/-- V66. -/
theorem test_linepush_refused :
    (after [.linepush true, .linepush false, .linepush true] (smallState 256 (some 2))).map
      (fun t => (t.line, t.lineOut, t.status.pack)) = some ([true, false], [true, false], 0x40) := by decide
/-- P4: the values 0, 0, 1, 0, −1, 0, −1, 0, 1, 0, 0, 0 of V62 for the bits 1, 0 and `g = 2`. -/
theorem test_synth : (stepWord 0x9000000000 (profState 250 [true, false])).map (·.samp) =
    some ([.gap, .gap, .carrier true 0 4, .carrier true 1 4, .carrier true 2 4, .carrier true 3 4,
      .carrier false 0 4, .carrier false 1 4, .carrier false 2 4, .carrier false 3 4, .gap, .gap].map
        (fun x => ⟨.identity, x⟩)) := by decide
/-- V66: no profile. -/
theorem test_synth_refused :
    (after [.linepush true, .synth] State.reset).map (fun t => (t.samp, t.line, t.status.pack)) =
      some ([], [true], 0x10) := by decide
/-- V61, the ties. -/
theorem test_gap_ties :
    gapSamples 44100 5 = 220 ∧ gapSamples 44100 15 = 662 ∧ gapSamples 500 1 = 0 ∧ gapSamples 500 3 = 2 ∧
    gapSamples 1500 1 = 2 ∧ gapSamples 12 125 = 2 ∧ gapSamples 11025 2 = 22 := by decide

/-! ### Witnesses: operands and states that meet the hypotheses of each statement that has some -/

theorem test_witness_EveryWordSelectsExactlyOneRow :
    cmdOp 0x3FFFFFFFFF = cmdOp 0x3000000000 ∧ 0xC ≤ (cmdOp 0xC000000000).toNat ∧ 0xC ≤ (cmdOp 0xFFFFFFFFFF).toNat := by
  decide

/-- For each operation, two different words with the same used fields (V72), and the canonical words of the second half. -/
theorem test_witness_UnusedFieldsAreIgnored :
    (cmdOp 0x3FFFFFFFFF = cmdOp 0x3000000000 ∧ cmdOp 0x3FFFFFFFFF = 0x3) ∧
    (cmdOp 0x110000012C = 0x1 ∧ cmdSel 0x110000012C = 0x1 ∧ cmdData 0x110000012C = 300) ∧
    (cmdOp 0x2A12345678 = 0x2 ∧ cmdOp 0x2A00000000 = 0x2 ∧ cmdSel 0x2A12345678 = cmdSel 0x2A00000000) ∧
    (cmdOp 0x50000001FF = 0x5 ∧ cmdOp 0x50000000FF = 0x5 ∧
      (cmdData 0x50000001FF).extractLsb' 0 8 = (cmdData 0x50000000FF).extractLsb' 0 8) ∧
    (cmdOp 0x80FFFFFFFE = 0x8 ∧ cmdOp 0x8000000000 = 0x8 ∧
      (cmdData 0x80FFFFFFFE).getLsbD 0 = (cmdData 0x8000000000).getLsbD 0) ∧
    (cmdOp 0xA5FFFFFFFF = 0xA ∧ cmdOp 0xA000000001 = 0xA ∧
      (cmdData 0xA5FFFFFFFF).getLsbD 0 = (cmdData 0xA000000001).getLsbD 0) ∧
    cmdOp (encode .derive) ≠ 0x1 ∧ cmdOp (encode .derive) ≠ 0x2 ∧ cmdOp (encode (.txpush 0xFF)) = 0x5 ∧
    cmdOp (encode (.linepush true)) = 0x8 ∧ cmdOp (encode (.rxbit false)) = 0xA := by decide

theorem test_witness_ImmediatesAreTakenUnsignedFromData :
    cmdOp 0x10FFFFFFFF = 0x1 ∧ cmdOp 0x50000001FF = 0x5 ∧ cmdOp 0x80FFFFFFFE = 0x8 ∧ cmdOp 0xA5FFFFFFFF = 0xA := by
  decide

theorem test_witness_StepRunsTheDecodedInstruction :
    (hostGive 0x4000000000 hiState).cmd = 0x4000000000 :: [] ∧ decode 0x4000000000 = .txclr ∧ hiState.cmd = [] := by
  decide

theorem test_witness_CommandsAreTakenInStreamOrder :
    (hostGive 0x4000000000 hiState).cmd = 0x4000000000 :: [] ∧
    step (hostGive 0x4000000000 hiState) = .next { hiState with txlen := 0 } := ⟨by decide, rfl⟩

theorem test_witness_ResetSatisfiesTheInvariant :
    Config.wf { txbufSize := 1, lineDepth := some 0, quantiser := .identity } ∧
    Config.wf { txbufSize := 2 ^ 32 - 1, lineDepth := none, quantiser := .other 0 } := by
  decide

/-- A machine in the middle of its work: a text, a profile, a bit in `LINE`, a decoder in Decode, a pending command. -/
def busyState : State :=
  { profState 10 [true] with
    cmd := [0xA000000001]
    txbuf := [(0, 0x48), (1, 0x49)]
    txlen := 2
    dec := { locked with bitCnt := 7, onesCnt := 4 }
    rxLog := [0x48]
    rxOut := [0x41, 0x48]
    samp := [⟨.identity, .gap⟩] }

theorem test_witness_EveryStepKeepsTheInvariant : Inv busyState ∧ ∃ t, step busyState = .next t :=
  ⟨{ cfg := by decide
     tx := ⟨by decide, by decide, by decide⟩
     line := ⟨fun _ h => by simp [busyState, profState, State.reset, State.resetWith, Config.default] at h, [], rfl⟩
     profile := ⟨by decide, fun _ => by decide, by decide⟩
     dec := ⟨by decide, by decide, by decide, by decide, by decide, by decide⟩
     trace := ⟨⟨[0x41], rfl⟩, by decide⟩ }, _, rfl⟩

theorem test_witness_EveryStepFromTheInvariantCompletes : Inv busyState :=
  test_witness_EveryStepKeepsTheInvariant.1

theorem test_witness_NopChangesNothing : cmdOp 0x0FFFFFFFFF = 0x0 := by decide

theorem test_witness_SetpWritesTheParameterRegister :
    cmdOp 0x110000012C = 0x1 ∧ 6 ≤ (selCode .reserved6).toNat ∧ 6 ≤ (selCode .status).toNat ∧
    6 ≤ (selCode .reserved15).toNat := by decide

theorem test_witness_GetpAppendsTheSelectedWord :
    cmdOp 0x2A12345678 = 0x2 ∧ (Sel.reserved7 = .reserved6 ∨ Sel.reserved7 = .reserved7 ∨ Sel.reserved7 = .reserved15) := by
  decide

theorem test_witness_ReservedOpcodesOnlySetIllcmd :
    cmdOp 0xC000000000 = 0xC ∧ cmdOp 0xD000000000 = 0xD ∧ cmdOp 0xE000000000 = 0xE ∧ cmdOp 0xFFFFFFFFFF = 0xF := by
  decide

theorem test_witness_WrittenParameterIsReadBack :
    Sel.writable .srate = true ∧ Sel.writable .gapms = true ∧ Sel.status ≠ Sel.srate ∧
    exec (.getp .status) hiState = .next { hiState with rsp := [0] } := ⟨rfl, rfl, by decide, rfl⟩

/-- V10 rows 6 and 13 (the least `PPB`, the largest values), `TBPS = SRATE` (row 7), and V12 rows 2, 4 and 6. -/
theorem test_witness_DeriveStoresTheProfileOrFails :
    cmdOp 0x3FFFFFFFFF = 0x3 ∧
    ((rateState 16000 50 50).params.srate.toNat = 16000 ∧ (rateState 16000 50 50).params.tbps.toNat = 50 ∧
      (rateState 16000 50 50).params.tcar.toNat = 50 ∧ 1 ≤ 50 ∧ 50 ≤ 16000 ∧ 16000 ≤ 50 * (16000 / 50)) ∧
    ((rateState 4294967295 1 4294967295).params.srate.toNat = 4294967295 ∧
      (rateState 4294967295 1 4294967295).params.tbps.toNat = 1 ∧
      (rateState 4294967295 1 4294967295).params.tcar.toNat = 4294967295 ∧
      1 ≤ 1 ∧ 1 ≤ 4294967295 ∧ 4294967295 ≤ 4294967295 * (4294967295 / 1)) ∧
    (1 ≤ 16000 ∧ 16000 ≤ 16000 ∧ 16000 ≤ 16000 * (16000 / 16000)) ∧
    ((rateState 16000 16001 2000).params.tbps.toNat = 16001 ∧ 16000 < 16001) ∧
    (rateState 16000 0 2000).params.tbps.toNat = 0 ∧
    ((rateState 16000 50 49).params.tcar.toNat = 49 ∧ 49 * (16000 / 50) < 16000) ∧
    Instr.nop ≠ .derive ∧ exec .nop hiState = .next hiState := by
  exact ⟨by decide, by decide, by decide, by decide, by decide, by decide, by decide, by decide, rfl⟩

theorem test_witness_DerivedRatesAreExactAndIdempotent :
    ∃ t, exec .derive (rateState 16000 3 2000) = .next t ∧ t.status.pvalid = true := ⟨_, rfl, rfl⟩

theorem test_witness_TxclrEmptiesTheText : cmdOp 0x4000000001 = 0x4 := by decide

theorem test_witness_TxpushWritesAtTxlen :
    cmdOp 0x50000001FF = 0x5 ∧
    ((smallState 2 none).cfg.wf ∧ Memory.wf [(0, 0x41), (1, 0x42)] ∧
      ({ smallState 2 none with txbuf := [(0, 0x41), (1, 0x42)], txlen := 2 } : State).txlen.toNat = 2) ∧
    (Memory.wf [(0, 0x41)] ∧
      ({ smallState 2 none with txbuf := [(0, 0x41)], txlen := 1 } : State).txlen.toNat < 2) ∧
    ((0 : Word).toNat < (smallState 2 none).cfg.txbufSize) := by decide

theorem test_witness_LoadedTextIsWhatTxbufHolds :
    (smallState 2 none).cfg.wf ∧ Memory.wf (smallState 2 none).txbuf ∧
    ([0x00, 0x42] : List CodeUnit).length ≤ (smallState 2 none).cfg.txbufSize ∧
    ([] : List CodeUnit).length ≤ (smallState 2 none).cfg.txbufSize := by decide

set_option maxRecDepth 4000 in
/-- The empty text (V22) into a `LINE` that it just fills, and "HI" into an unbounded one. -/
theorem test_witness_EncodeAppendsTheTransmission :
    cmdOp 0x6000000001 = 0x6 ∧
    ((smallState 256 (some 64)).params.repeatCount ≠ 0 ∧
      (smallState 256 (some 64)).txlen.toNat ≤ (smallState 256 (some 64)).cfg.txbufSize ∧
      (smallState 256 (some 64)).cfg.lineDepth = some 64 ∧
      (smallState 256 (some 64)).line.length + (formatPre 0 1 []).length ≤ 64) ∧
    (hiState.params.repeatCount ≠ 0 ∧ hiState.txlen.toNat ≤ hiState.cfg.txbufSize ∧
      (List.range hiState.txlen.toNat).map (Memory.read hiState.txbuf) = [0x48, 0x49] ∧
      hiState.cfg.lineDepth = none) := by decide

set_option maxRecDepth 4000 in
theorem test_witness_EncodeIsRefusedWhole :
    ({ State.reset.params with repeatCount := 0 } : Params).repeatCount = 0 ∧
    (smallState 256 (some 63)).params.repeatCount ≠ 0 ∧
    (smallState 256 (some 63)).txlen.toNat ≤ (smallState 256 (some 63)).cfg.txbufSize ∧
    (smallState 256 (some 63)).cfg.lineDepth = some 63 ∧
    63 < (smallState 256 (some 63)).line.length + (formatPre 0 1 []).length ∧
    (smallState 256 (some 64)).line.length + (formatPre 0 1 []).length ≤ 64 := by decide

theorem test_witness_DifferentialStageXorsThePreviousOutput :
    [true, false, false] = differential false [true, true, false] ∧ 1 + 1 < [true, true, false].length := by decide

theorem test_witness_StuffedPayloadBreaksEveryRunOfFive :
    (stuffBits 0 [false, true, true, true, true, true]).1 = [false] ++ List.replicate 5 true ++ [false] ∧
    (stuffBits 0 [true]).1 = (stuffBits 0 [true]).1 := by decide

theorem test_witness_LineclrEmptiesLine : cmdOp 0x7000000001 = 0x7 := by decide

theorem test_witness_LinepushAppendsTheBit :
    cmdOp 0x80FFFFFFFE = 0x8 ∧
    (smallState 256 none).cfg.lineDepth ≠ some (smallState 256 none).line.length ∧
    (smallState 256 (some 1)).cfg.lineDepth ≠ some (smallState 256 (some 1)).line.length ∧
    (smallState 256 (some 0)).cfg.lineDepth = some (smallState 256 (some 0)).line.length := by decide

theorem test_witness_SynthDrainsLineIntoSamp :
    cmdOp 0x9000000001 = 0x9 ∧
    2000 = (profState 250 [true]).profile.psrate.toNat * (profState 250 [true]).params.gapms.toNat ∧
    2 = (if 500 < 2000 % 1000 ∨ (2000 % 1000 = 500 ∧ 2000 / 1000 % 2 = 1) then 2000 / 1000 + 1 else 2000 / 1000) ∧
    [Sample.gap, Sample.gap] = List.replicate 2 Sample.gap ∧
    (profState 250 [true]).status.pvalid = true ∧ State.reset.status.pvalid = false := by decide

/-- The last sample of bit 0 and the first sample of bit 1. -/
theorem test_witness_SynthSamplesAreTheModulatedCarrier :
    (profState 250 [true, false]).status.pvalid = true ∧ (profState 250 [true, false]).profile.spb.toNat = 4 ∧
    (profState 250 [true, false]).profile.ppb.toNat = 1 ∧ gapSamples 8 250 = 2 ∧ 1 ≤ 4 ∧
    ((profState 250 [true, false]).line[0]? = some true ∧ 3 / 4 = 0) ∧
    ((profState 250 [true, false]).line[1]? = some false ∧ 4 / 4 = 1) := by decide

/-- A tie of V61: `PSRATE = 500`, `GAPMS = 3`. -/
theorem test_witness_GapLengthIsRoundedHalfToEven :
    ({ profState 3 [] with profile := { psrate := 500, spb := 4, ppb := 1 } } : State).status.pvalid = true ∧
    (3 / 2 : ℚ) = (500 : ℚ) * 3 / 1000 ∧ |((gapSamples 500 3 : ℕ) : ℚ) - 3 / 2| = 1 / 2 := by
  refine ⟨by decide, by norm_num, ?_⟩
  rw [show gapSamples 500 3 = 2 by decide]
  norm_num [abs_of_nonneg]

theorem test_witness_SynthOutputLength :
    ({ profState 0 [true, false] with profile := { psrate := 16000, spb := 320, ppb := 40 } } : State).status.pvalid
      = true ∧
    ({ profState 0 [true, false] with profile := { psrate := 16000, spb := 320, ppb := 40 } } : State).profile.spb
      = 320 ∧
    (profState 0 [true, false]).line.length = 2 ∧ (profState 0 [true, false]).params.gapms = 0 := by decide

theorem test_witness_SampleMagnitudeIsAtMostOne :
    (⟨.identity, .gap⟩ : QSample) ∈ busyState.samp ∧
    (Inv busyState ∧ busyState.cfg.quantiser = .identity ∧ (0 : ℝ) ∈ busyState.sampValues) ∧
    ((profState 250 [true, false]).status.pvalid = true ∧ 1 ≤ (profState 250 [true, false]).profile.spb.toNat ∧
      gapSamples 8 250 = 2 ∧ 1 < (profState 250 [true, false]).line.length ∧
      (profState 250 [true, false]).cfg.quantiser = .identity) := by
  refine ⟨by decide, ⟨test_witness_EveryStepKeepsTheInvariant.1, rfl, ?_⟩, by decide⟩
  simp [busyState, State.sampValues, QSample.value, Quantiser.apply, Sample.value]

/-- SYNTH with a quantiser that is not the identity, and an instruction that is not SYNTH. -/
theorem test_witness_SampHoldsTheQuantisedExactValues :
    (∃ t, exec .synth { profState 250 [true] with cfg := { Config.default with quantiser := .other 3 } } = .next t ∧
      t.samp.head? = some ⟨.other 3, .gap⟩ ∧ (profState 250 [true]).status.pvalid = true) ∧
    exec .nop busyState = .next busyState ∧ Instr.nop ≠ .synth :=
  ⟨⟨_, rfl, by decide, by decide⟩, rfl, by decide⟩

theorem test_witness_EveryBitStartsAtPhaseZero : 1 ≤ 1 ∧ 1 ≤ 320 := by decide

theorem test_witness_SkipOneConsumesOneBit :
    (decState { locked with mode := .skipOne }).dec.mode = .skipOne := by decide

theorem test_witness_SkipTwoRealignsOrResets :
    (decState { locked with mode := .skipTwo }).dec.mode = .skipTwo ∧
    ((decState { locked with mode := .skipTwo }).dec.lastRaw ^^ true) = true ∧
    ((decState { locked with mode := .skipTwo }).dec.lastRaw ^^ false) = false := by decide

theorem test_witness_CommonPartShiftsTheRecoveredBitIn :
    ({ locked with bitCnt := 7 } : Decoder).bitCnt.toNat ≤ 7 ∧ false = false ∧ true = true := by decide

/-- V40 rows 7 and 0: a match and no match, and the wrap of `bitCnt`. -/
theorem test_witness_WaitSyncSearchesEveryBit :
    (decState { Decoder.reset with shiftBuf := 0x3F, bitCnt := 7 }).dec.mode = .waitSync ∧
    (Decoder.shiftIn { Decoder.reset with shiftBuf := 0x3F, bitCnt := 7 } (false ^^ false)).shiftBuf = 0x7E ∧
    (Decoder.shiftIn { Decoder.reset with bitCnt := 7 } (false ^^ true)).shiftBuf ≠ 0x7E ∧
    (Decoder.shiftIn { Decoder.reset with bitCnt := 7 } (false ^^ true)).bitCnt = 8 := by decide

/-- V40 rows 46, 15 and 47, and the mismatch of V50. -/
theorem test_witness_WaitStartCountsAlignedSyncWords :
    (decState { Decoder.reset with mode := .waitStart }).dec.mode = .waitStart ∧
    (Decoder.shiftIn { Decoder.reset with mode := .waitStart, bitCnt := 6 } true).bitCnt ≠ 8 ∧
    ((Decoder.shiftIn { Decoder.reset with mode := .waitStart, bitCnt := 7, shiftBuf := 0x3F } false).bitCnt = 8 ∧
      (Decoder.shiftIn { Decoder.reset with mode := .waitStart, bitCnt := 7, shiftBuf := 0x3F } false).shiftBuf = 0x7E ∧
      (3 : BitVec 3).toNat + 1 < 5 ∧ 5 ≤ (4 : BitVec 3).toNat + 1) ∧
    ((Decoder.shiftIn { Decoder.reset with mode := .waitStart, bitCnt := 7, shiftBuf := 0x2A } true).bitCnt = 8 ∧
      (Decoder.shiftIn { Decoder.reset with mode := .waitStart, bitCnt := 7, shiftBuf := 0x2A } true).shiftBuf ≠ 0x7E) := by
  decide

/-- V49 at n = 55: a byte and the fifth one in the same step. -/
theorem test_witness_DecodeEmitsBytesAndSkipsAfterFiveOnes :
    (decState { locked with bitCnt := 7, onesCnt := 4, shiftBuf := 0x2F }).dec.mode = .decode ∧
    (Decoder.shiftIn { locked with bitCnt := 7, onesCnt := 4, shiftBuf := 0x2F } true).bitCnt = 8 ∧
    (Decoder.shiftIn { locked with bitCnt := 7, onesCnt := 4, shiftBuf := 0x2F } true).onesCnt = 5 := by decide

theorem test_witness_RxresetRestoresTheResetDecoder :
    cmdOp 0xB000000001 = 0xB ∧ exec .rxreset (decState locked) = .next State.reset := ⟨by decide, rfl⟩

set_option maxRecDepth 4000 in
theorem test_witness_DecodingATransmissionReproducesTheText :
    hiState.dec = Decoder.reset ∧ hiState.rxLog = [] ∧
    [0x48, 0x49] = (List.range hiState.txlen.toNat).map (Memory.read hiState.txbuf) ∧
    ∃ t bits, exec .encode hiState = .next t ∧ t.lineOut = hiState.lineOut ++ bits ∧ bits ≠ [] :=
  ⟨rfl, rfl, by decide, _, lineBits 2 1 [0x48, 0x49], rfl, rfl, by decide⟩

theorem test_witness_InvertedLineDecodesWithAPreamble :
    State.reset.dec = Decoder.reset ∧ State.reset.rxLog = [] ∧ 1 ≤ 1 := by decide

theorem test_witness_SyncWordInDecodeIsPassedOver :
    (decState { locked with onesCnt := 4 }).dec.mode = .decode ∧
    (decState { locked with onesCnt := 4 }).dec.onesCnt.toNat ≤ 4 ∧
    (decState { locked with onesCnt := 4 }).dec.bitCnt = 0 ∧ (decState { locked with bitCnt := 7 }).dec.onesCnt.toNat ≤ 4 := by
  decide

theorem test_witness_WaitSyncIsReenteredOnlyFromSkipTwo :
    (∃ t, exec (.rxbit true) (decState { locked with mode := .skipTwo }) = .next t ∧
      (decState { locked with mode := .skipTwo }).dec.mode ≠ .waitSync ∧ t.dec.mode = .waitSync) ∧
    (∃ t, exec (.rxbit false)
        (decState { Decoder.reset with mode := .waitStart, bitCnt := 7, shiftBuf := 0x3F, syncRun := 4 }) = .next t ∧
      t.dec.mode ≠ .waitStart) :=
  ⟨⟨_, rfl, by decide, by decide⟩, ⟨_, rfl, by decide⟩⟩

theorem test_witness_DecoderIsWrittenOnlyByItsCommands :
    (exec .txclr hiState = .next { hiState with txlen := 0 } ∧ decoderCommand .txclr = false) ∧
    (exec .rxreset (decState locked) = .next State.reset ∧ decoderCommand .rxreset = true) :=
  ⟨⟨rfl, rfl⟩, rfl, rfl⟩

theorem test_witness_DecoderCommandsCommuteWithTheOthers :
    decoderCommand .rxreset = true ∧ decoderCommand .txclr = false ∧ Instr.txclr ≠ .getp .decstate ∧
    exec .txclr { hiState with dec := locked } = .next { hiState with dec := locked, txlen := 0 } ∧
    exec .rxreset { hiState with dec := locked, txlen := 0 } = .next { hiState with txlen := 0 } :=
  ⟨rfl, rfl, by decide, rfl, rfl⟩

theorem test_witness_EveryPieceOfStateHasItsWriters :
    exec .txclr hiState = .next { hiState with txlen := 0 } ∧ (∀ sel v, Instr.txclr ≠ .setp sel v) ∧
    Instr.txclr ≠ .derive ∧ (∀ u, Instr.txclr ≠ .txpush u) ∧ (∀ b, Instr.txclr ≠ .linepush b) ∧ Instr.txclr ≠ .encode ∧
    Instr.txclr ≠ .synth ∧ Instr.txclr ≠ .lineclr ∧ (∀ sel, Instr.txclr ≠ .getp sel) ∧ (∀ raw, Instr.txclr ≠ .rxbit raw) ∧
    Instr.txclr ≠ .rxreset ∧ Instr.txclr ≠ .reservedC ∧ Instr.txclr ≠ .reservedD ∧ Instr.txclr ≠ .reservedE ∧
    Instr.txclr ≠ .reservedF :=
  ⟨rfl, nofun, nofun, nofun, nofun, nofun, nofun, nofun, nofun, nofun, nofun, nofun, nofun, nofun, nofun⟩

theorem test_witness_RefusalFlagsAreSetExactlyByTheirCauses :
    exec .reservedC State.reset =
      .next { State.reset with status := { State.reset.status with illcmd := true } } := rfl

theorem test_witness_TracesOnlyGrowAtTheTail :
    exec (.linepush true) State.reset = .next { State.reset with line := [true], lineOut := [true] } := rfl

theorem test_witness_OnlyTxlenOutsideTheBufferFaults :
    exec (.txpush 0x41) { smallState 2 none with txlen := 3 } = .fault (.txbufIndex 3) := rfl

end Sys2Proof.Tests
end

