-- ==== Sys2Proof/Proofs/State.lean ====
section
/-! PROOFS. The state: what reset leaves (10_state.md R50), the places of `DECSTATE` (R43), and what the commands append to
`SAMP` (R44). The lemmas come first, the theorems that settle the obligations last. -/

namespace Sys2Proof.Machine

/-! ### The fields of the reset state (R50) -/

@[simp] theorem State.resetWith_params (c : Config) : (State.resetWith c).params =
    { srate := 16000, tbps := 50, tcar := 2000, repeatCount := 1, preamble := 0, gapms := 0 } := rfl
@[simp] theorem State.resetWith_status (c : Config) : (State.resetWith c).status =
    { pvalid := false, cfgerr := false, txovf := false, badarg := false, noprof := false, illcmd := false,
      lineovf := false } := rfl
@[simp] theorem State.resetWith_profile (c : Config) :
    (State.resetWith c).profile = { psrate := 0, spb := 0, ppb := 0 } := rfl
@[simp] theorem State.resetWith_txlen (c : Config) : (State.resetWith c).txlen = 0 := rfl
@[simp] theorem State.resetWith_txbuf (c : Config) : (State.resetWith c).txbuf = [] := rfl
@[simp] theorem State.resetWith_line (c : Config) : (State.resetWith c).line = [] := rfl
@[simp] theorem State.resetWith_lineOut (c : Config) : (State.resetWith c).lineOut = [] := rfl
@[simp] theorem State.resetWith_samp (c : Config) : (State.resetWith c).samp = [] := rfl
@[simp] theorem State.resetWith_rxOut (c : Config) : (State.resetWith c).rxOut = [] := rfl
@[simp] theorem State.resetWith_rsp (c : Config) : (State.resetWith c).rsp = [] := rfl

/-- The reset event forgets everything but the OPEN parameters (R8, R250). -/
@[simp] theorem resetEvent_eq (s : State) : resetEvent s = State.resetWith s.cfg := rfl

/-! ### The places of the registers in `DECSTATE` (R43)

`Decoder.pack` is a chain of appends whose low end is its last operand. A field is read by dropping the operands below it
(`BitVec.extractLsb'_append_eq_of_le`) and those above it (`BitVec.extractLsb'_append_eq_of_add_le`). The append lemmas need
the width of the word as the sum of the operands' widths: the outermost append, whose width the type `Word` writes as 32, is
taken off by `rw`, and simp must not add up the widths that are left. -/

section
variable (d : Decoder)

theorem Decoder.pack_mode : d.pack.extractLsb' 0 3 = d.mode.code := by
  rw [Decoder.pack, BitVec.extractLsb'_append_eq_of_add_le (by decide), BitVec.extractLsb'_eq_self]

theorem Decoder.pack_resumeMode : d.pack.getLsbD 3 = d.resumeMode.code.getLsbD 0 := by
  rw [Decoder.pack, BitVec.getLsbD_append]
  simp [-Nat.reduceAdd, -BitVec.getLsbD_eq_getElem, BitVec.getLsbD_append]

theorem Decoder.pack_bitCnt : d.pack.extractLsb' 4 4 = d.bitCnt := by
  rw [Decoder.pack, BitVec.extractLsb'_append_eq_of_le (by decide)]
  simp [-Nat.reduceAdd, BitVec.extractLsb'_append_eq_of_le, BitVec.extractLsb'_append_eq_of_add_le]

theorem Decoder.pack_onesCnt : d.pack.extractLsb' 8 3 = d.onesCnt := by
  rw [Decoder.pack, BitVec.extractLsb'_append_eq_of_le (by decide)]
  simp [-Nat.reduceAdd, BitVec.extractLsb'_append_eq_of_le, BitVec.extractLsb'_append_eq_of_add_le]

theorem Decoder.pack_syncRun : d.pack.extractLsb' 11 3 = d.syncRun := by
  rw [Decoder.pack, BitVec.extractLsb'_append_eq_of_le (by decide)]
  simp [-Nat.reduceAdd, BitVec.extractLsb'_append_eq_of_le, BitVec.extractLsb'_append_eq_of_add_le]

theorem Decoder.pack_lastRaw : d.pack.getLsbD 14 = d.lastRaw := by
  rw [Decoder.pack, BitVec.getLsbD_append]
  simp [-Nat.reduceAdd, -BitVec.getLsbD_eq_getElem, BitVec.getLsbD_append]

theorem Decoder.pack_bit15 : d.pack.getLsbD 15 = false := by
  rw [Decoder.pack, BitVec.getLsbD_append]
  simp [-Nat.reduceAdd, -BitVec.getLsbD_eq_getElem, BitVec.getLsbD_append]

theorem Decoder.pack_shiftBuf : d.pack.extractLsb' 16 8 = d.shiftBuf := by
  rw [Decoder.pack, BitVec.extractLsb'_append_eq_of_le (by decide)]
  simp [-Nat.reduceAdd, BitVec.extractLsb'_append_eq_of_le, BitVec.extractLsb'_append_eq_of_add_le]

theorem Decoder.pack_bits31_24 : d.pack.extractLsb' 24 8 = 0#8 := by
  rw [Decoder.pack, BitVec.extractLsb'_append_eq_of_le (by decide)]
  simp [-Nat.reduceAdd, BitVec.extractLsb'_append_eq_of_le]

end

/-! ### The signal part as a format (R90, R193, R195) -/

/-- The signal part for `bits`, begun at sample number `i`: the bits are counted from the first one given, the phase from
sample number 0. -/
theorem signalSamples_eq_map_range (spb ppb i : Nat) (bits : List Bit) :
    signalSamples spb ppb (ppb * i % spb) bits =
      (List.range (bits.length * spb)).map (fun k => .carrier (bits.getD (k / spb) false) (ppb * (i + k) % spb) spb) := by
  induction bits generalizing i with
  | nil => simp [signalSamples]
  | cons b bs ih =>
    have hlen : (b :: bs).length * spb = spb + bs.length * spb := by
      rw [List.length_cons, Nat.succ_mul, Nat.add_comm]
    rw [hlen, List.range_add, List.map_append, List.map_map, signalSamples, holdSymbol_eq, ih]
    congr 1
    · refine List.map_congr_left fun k hk => ?_
      rw [Nat.div_eq_of_lt (List.mem_range.1 hk), List.getD_cons_zero]
    · refine List.map_congr_left fun k hk => ?_
      have hspb : 0 < spb := Nat.pos_of_mul_pos_left (Nat.zero_lt_of_lt (List.mem_range.1 hk))
      rw [Function.comp, Nat.add_div_left k hspb, List.getD_cons_succ, Nat.add_assoc]

/-- The procedure of `SYNTH` produces the format of R90. -/
theorem signalSamples_zero (spb ppb : Nat) (bits : List Bit) :
    signalSamples spb ppb 0 bits = formatSignal spb ppb bits := by
  simpa [formatSignal] using signalSamples_eq_map_range spb ppb 0 bits

/-- Everything one `SYNTH` emits: gap, signal, gap (R193, R196). -/
theorem synthSamples_eq (p : Profile) (gapms : Word) (bits : List Bit) :
    synthSamples p gapms bits =
      List.replicate (gapSamples p.psrate.toNat gapms.toNat) Sample.gap
        ++ formatSignal p.spb.toNat p.ppb.toNat bits
        ++ List.replicate (gapSamples p.psrate.toNat gapms.toNat) Sample.gap := by
  simp only [synthSamples, signalSamples_zero]

/-! ### What a command appends to `SAMP` (R44) -/

/-- `SYNTH` with a profile appends its samples to `SAMP`; every other way in which a command completes leaves `SAMP`. -/
theorem exec_samp_cases {i : Instr} {s t : State} (h : exec i s = .next t) :
    (i = .synth ∧ s.status.pvalid = true ∧
      t.samp = s.samp ++ s.quantise (synthSamples s.profile s.params.gapms s.line)) ∨
    (¬(i = .synth ∧ s.status.pvalid = true) ∧ t.samp = s.samp) := by
  cases exec_transition h with
  | synth _ hp => exact .inl ⟨rfl, hp, rfl⟩
  | synthRefused _ hp => exact .inr ⟨by simp [hp], rfl⟩
  | setp _ _ _ _ _ ht => exact .inr ⟨by simp, by rw [(State.writeReg_eq_some ht).1]⟩
  | _ => exact .inr ⟨by simp, rfl⟩

/-- What a reader of `SAMP` sees after samples went through `Q` onto its tail. -/
theorem State.sampValues_of_samp_append {s t : State} {xs : List Sample} (h : t.samp = s.samp ++ s.quantise xs) :
    t.sampValues = s.sampValues ++ xs.map (fun x => s.cfg.quantiser.apply x.value) := by
  rw [State.sampValues, h, List.map_append, State.map_value_quantise, State.sampValues]

end Sys2Proof.Machine

namespace Sys2Proof.Proofs
open Sys2Proof.Machine

/-- Settles O10: the fields of the reset state, read one by one. -/
theorem resetLeavesTheManualsValues : Obligations.ResetLeavesTheManualsValues := by
  intro s
  simp [Decoder.reset]

/-- Settles O17: each field of the packed word is read back by the lemma for its place; what is left are the encodings of
the modes (R97). -/
theorem decstatePacksTheDecoderRegisters : Obligations.DecstatePacksTheDecoderRegisters := by
  intro d
  refine ⟨?_, ?_, d.pack_bitCnt, d.pack_onesCnt, d.pack_syncRun, d.pack_lastRaw, d.pack_bit15, d.pack_shiftBuf,
    d.pack_bits31_24⟩
  · rw [d.pack_mode]
    cases d.mode <;> rfl
  · rw [d.pack_resumeMode]
    cases d.resumeMode <;> rfl

/-- Settles O59, by the two cases of what a command does to `SAMP`: the samples appended are those of `SYNTH`, or none. -/
theorem sampHoldsTheQuantisedExactValues : Obligations.SampHoldsTheQuantisedExactValues := by
  refine ⟨fun i s t h => ?_, fun s hp => ?_, fun s => State.resetWith_samp s.cfg⟩
  · obtain ⟨rfl, _, hsamp⟩ | ⟨hnot, hsamp⟩ := exec_samp_cases h
    · exact ⟨fun hne => absurd rfl hne, _, hsamp, State.sampValues_of_samp_append hsamp,
        fun _ _ => synthSamples_eq s.profile s.params.gapms s.line⟩
    · have hnil : t.samp = s.samp ++ s.quantise [] := by simp [hsamp]
      exact ⟨fun _ => hsamp, [], hnil, State.sampValues_of_samp_append hnil, fun hi hp => absurd ⟨hi, hp⟩ hnot⟩
  · obtain ⟨_, hexec⟩ | ⟨hnp, _⟩ := execSynth_cases s
    · exact ⟨_, hexec⟩
    · simp [hp] at hnp

end Sys2Proof.Proofs
end

