-- ==== Sys2Proof/Proofs/Encoding.lean ====
section
/-! PROOFS. The encoding (30_encoding.md): decoding and the opcode map (R93 to R101), and the procedure of ENCODE as the
line format (R80 to R90). The lemmas come first, the theorems that settle the obligations last. -/

namespace Sys2Proof

/-! ### Decoding, one equation per value of `op` (R94) -/

section
variable {w : CmdWord}

theorem decode_eq_nop (h : cmdOp w = 0x0) : decode w = .nop := by simp [decode, h]
theorem decode_eq_setp (h : cmdOp w = 0x1) : decode w = .setp (selOfCode (cmdSel w)) (cmdData w) := by simp [decode, h]
theorem decode_eq_getp (h : cmdOp w = 0x2) : decode w = .getp (selOfCode (cmdSel w)) := by simp [decode, h]
theorem decode_eq_derive (h : cmdOp w = 0x3) : decode w = .derive := by simp [decode, h]
theorem decode_eq_txclr (h : cmdOp w = 0x4) : decode w = .txclr := by simp [decode, h]
theorem decode_eq_txpush (h : cmdOp w = 0x5) : decode w = .txpush (dataUnit (cmdData w)) := by simp [decode, h]
theorem decode_eq_encode (h : cmdOp w = 0x6) : decode w = .encode := by simp [decode, h]
theorem decode_eq_lineclr (h : cmdOp w = 0x7) : decode w = .lineclr := by simp [decode, h]
theorem decode_eq_linepush (h : cmdOp w = 0x8) : decode w = .linepush (dataBit (cmdData w)) := by simp [decode, h]
theorem decode_eq_synth (h : cmdOp w = 0x9) : decode w = .synth := by simp [decode, h]
theorem decode_eq_rxbit (h : cmdOp w = 0xA) : decode w = .rxbit (dataBit (cmdData w)) := by simp [decode, h]
theorem decode_eq_rxreset (h : cmdOp w = 0xB) : decode w = .rxreset := by simp [decode, h]
theorem decode_eq_reservedC (h : cmdOp w = 0xC) : decode w = .reservedC := by simp [decode, h]
theorem decode_eq_reservedD (h : cmdOp w = 0xD) : decode w = .reservedD := by simp [decode, h]
theorem decode_eq_reservedE (h : cmdOp w = 0xE) : decode w = .reservedE := by simp [decode, h]
theorem decode_eq_reservedF (h : cmdOp w = 0xF) : decode w = .reservedF := by simp [decode, h]

end

/-- Encoding what a word decodes to keeps the word's `op`: `decode` and `encode` number the rows alike. -/
theorem cmdOp_encode_decode (w : CmdWord) : cmdOp (encode (decode w)) = cmdOp w := by
  rcases opNibble_cases (cmdOp w) with h | h | h | h | h | h | h | h | h | h | h | h | h | h | h | h <;>
    simp [decode, encode, h]

/-- Of a word whose operation takes no operand, `op` alone decides the instruction. -/
theorem decode_congr_of_no_operand {w w' : CmdWord} (hop : cmdOp w = cmdOp w') (h1 : cmdOp w ≠ 0x1)
    (h2 : cmdOp w ≠ 0x2) (h5 : cmdOp w ≠ 0x5) (h8 : cmdOp w ≠ 0x8) (hA : cmdOp w ≠ 0xA) : decode w = decode w' := by
  rcases opNibble_cases (cmdOp w) with h | h | h | h | h | h | h | h | h | h | h | h | h | h | h | h <;>
    simp_all [decode, ← hop]

/-! ### The immediates, taken out of the word itself (R93, R99) -/

theorem dataUnit_cmdData (w : CmdWord) : dataUnit (cmdData w) = w.extractLsb' 0 8 := by
  simp [dataUnit, cmdData]

theorem dataBit_cmdData (w : CmdWord) : dataBit (cmdData w) = w.getLsbD 0 := by
  simp [dataBit, cmdData]

/-! ### The unused fields of the canonical words (R96, R101) -/

/-- Only `SETP` and `GETP` have a selector. -/
theorem cmdSel_encode_eq_zero {i : Instr} (h1 : cmdOp (encode i) ≠ 0x1) (h2 : cmdOp (encode i) ≠ 0x2) :
    cmdSel (encode i) = 0 := by
  cases i with
  | setp sel data => simp [encode] at h1
  | getp sel => simp [encode] at h2
  | _ => simp [encode]

/-- Only `SETP`, `TXPUSH`, `LINEPUSH` and `RXBIT` have data. -/
theorem cmdData_encode_eq_zero {i : Instr} (h1 : cmdOp (encode i) ≠ 0x1) (h5 : cmdOp (encode i) ≠ 0x5)
    (h8 : cmdOp (encode i) ≠ 0x8) (hA : cmdOp (encode i) ≠ 0xA) : cmdData (encode i) = 0 := by
  cases i with
  | setp sel data => simp [encode] at h1
  | txpush u => simp [encode] at h5
  | linepush b => simp [encode] at h8
  | rxbit b => simp [encode] at hA
  | _ => simp [encode]

/-- The data of `TXPUSH` is a code unit. -/
theorem cmdData_encode_lt_of_txpush {i : Instr} (h : cmdOp (encode i) = 0x5) : (cmdData (encode i)).toNat < 256 := by
  cases i with
  | txpush u => simpa [encode] using Nat.lt_of_le_of_lt (Nat.mod_le u.toNat 4294967296) u.isLt
  | _ => simp [encode] at h

/-- The data of `LINEPUSH` and `RXBIT` is a bit. -/
theorem cmdData_encode_lt_of_bit {i : Instr} (h : cmdOp (encode i) = 0x8 ∨ cmdOp (encode i) = 0xA) :
    (cmdData (encode i)).toNat < 2 := by
  cases i with
  | linepush b => cases b <;> decide
  | rxbit b => cases b <;> decide
  | _ => simp [encode] at h

end Sys2Proof

namespace Sys2Proof.Laws

/-- The canonical word of every instruction selects the instruction's own row, and no other. -/
theorem CanonicalRow.all (i : Instr) : CanonicalRow.Statement i := by
  cases i with
  | nop => exact nop
  | setp sel data => exact setp sel data
  | getp sel => exact getp sel
  | derive => exact derive
  | txclr => exact txclr
  | txpush u => exact txpush u
  | encode => exact encode
  | lineclr => exact lineclr
  | linepush b => exact linepush b
  | synth => exact synth
  | rxbit b => exact rxbit b
  | rxreset => exact rxreset
  | reservedC => exact reservedC
  | reservedD => exact reservedD
  | reservedE => exact reservedE
  | reservedF => exact reservedF

/-- `op` alone decides which rows a word selects. -/
theorem selects_congr {r : OpcodeRow} (hr : r ∈ opcodeTable) {w w' : CmdWord} (h : cmdOp w = cmdOp w') :
    r.selects w = r.selects w' := by
  have hop (v : CmdWord) : r.selects v = r.selects (mkCmd (cmdOp v) 0 0) := by
    rw [← selects_mkCmd _ (cmdSel v) (cmdData v) r hr, mkCmd_fields]
  rw [hop w, hop w', h]

/-- A word selects exactly the row of the instruction it decodes to. -/
theorem selects_iff {r : OpcodeRow} (hr : r ∈ opcodeTable) (w : CmdWord) :
    r.selects w = true ↔ r.mnemonic = mnemonic (decode w) := by
  rw [← selects_congr hr (cmdOp_encode_decode w)]
  exact CanonicalRow.all (decode w) r hr

/-- The mnemonics name the rows: no two rows share one. -/
theorem opcodeTable_mnemonic_inj :
    ∀ r ∈ opcodeTable, ∀ r' ∈ opcodeTable, r'.mnemonic = r.mnemonic → r' = r := by
  decide

/-- Every instruction has a row. -/
theorem exists_row_of_instr (i : Instr) : ∃ r ∈ opcodeTable, r.mnemonic = mnemonic i := by
  cases i <;> simp [opcodeTable, mnemonic]

end Sys2Proof.Laws

namespace Sys2Proof.Machine

/-! ### What a word makes the machine do (R10, R214) -/

/-- A word at the head of `CMD` is taken, decoded and executed (R10). -/
theorem step_cmd_cons (s : State) (w : CmdWord) (rest : List CmdWord) :
    step { s with cmd := w :: rest } = exec (decode w) { s with cmd := rest } := rfl

/-- The reserved opcodes are refused with `ILLCMD` (R214). -/
theorem exec_decode_of_reserved {w : CmdWord} (h : 0xC ≤ (cmdOp w).toNat) (s : State) :
    exec (decode w) s = .next (s.refuse .illcmd) := by
  obtain h | h | h | h : cmdOp w = 0xC ∨ cmdOp w = 0xD ∨ cmdOp w = 0xE ∨ cmdOp w = 0xF := by bv_omega
  · rw [decode_eq_reservedC h]; rfl
  · rw [decode_eq_reservedD h]; rfl
  · rw [decode_eq_reservedE h]; rfl
  · rw [decode_eq_reservedF h]; rfl

/-! ### The differential stage (R89, R146) -/

/-- One more `1` flips the parity. -/
theorem parity_succ (n : Nat) : ((n + 1) % 2 == 1) = !(n % 2 == 1) := by
  rcases Nat.mod_two_eq_zero_or_one n with h | h <;> simp [Nat.add_mod, h]

/-- The stage from any line level: a line bit is the level flipped once for every `1` up to and including its place. -/
theorem differential_eq_map_range (level : Bit) (pre : List Bit) :
    differential level pre =
      (List.range pre.length).map (fun n => level ^^ ((pre.take (n + 1)).count true % 2 == 1)) := by
  induction pre generalizing level with
  | nil => rfl
  | cons b bs ih =>
    rw [differential, ih, List.length_cons, List.range_succ_eq_map, List.map_cons, List.map_map]
    congr 1
    · cases b <;> cases level <;> rfl
    · refine List.map_congr_left fun n _ => ?_
      rw [Function.comp, Nat.succ_eq_add_one, List.take_succ_cons]
      cases b <;> simp [parity_succ]

/-- The procedure of the stage produces the line code of the format. -/
theorem differential_eq_formatLine (pre : List Bit) : differential false pre = formatLine pre := by
  simp [differential_eq_map_range, formatLine]

/-- A line bit is its bit XOR the line level just before it, where `level` stands before the first one. -/
theorem getD_differential {level : Bit} {pre : List Bit} {n : Nat} (h : n < pre.length) :
    (differential level pre).getD n false = (pre.getD n false ^^ (level :: differential level pre).getD n false) := by
  induction pre generalizing level n with
  | nil => simp at h
  | cons b bs ih =>
    cases n with
    | zero => rfl
    | succ n => exact ih (Nat.lt_of_succ_lt_succ h)

/-- The first line bit, from level 0, is the first bit. -/
theorem head?_differential (pre : List Bit) : (differential false pre).head? = pre.head? := by
  cases pre <;> simp [differential]

/-! ### Bit stuffing (R87, R144) -/

/-- Up to four `1`s already out do not change what is stuffed before a `0`. -/
theorem formatStuff_replicate_append_false {ones : Nat} (h : ones ≤ 4) (l : List Bit) :
    formatStuff (List.replicate ones true ++ false :: l) = List.replicate ones true ++ false :: formatStuff l := by
  interval_cases ones <;> simp [List.replicate_succ, formatStuff]

/-- Up to four `1`s alone get no stuffed bit. -/
theorem formatStuff_replicate {ones : Nat} (h : ones ≤ 4) :
    formatStuff (List.replicate ones true) = List.replicate ones true := by
  interval_cases ones <;> rfl

/-- The format counts the ones of a stretch by looking ahead, the procedure in `encOnes`: they agree once the `encOnes`
ones already out are put in front of the bits to come. -/
theorem formatStuff_replicate_append {ones : Nat} (h : ones ≤ 4) (l : List Bit) :
    formatStuff (List.replicate ones true ++ l) = List.replicate ones true ++ (stuffBits ones l).1 := by
  induction l generalizing ones with
  | nil => simpa [stuffBits] using formatStuff_replicate h
  | cons b l ih =>
    obtain ⟨rfl, hb⟩ | ⟨rfl, rfl, hb⟩ | ⟨rfl, hne, hb⟩ := stuffBit_cases ones b
    · have := ih (ones := 0) (by omega)
      simpa [stuffBits, hb, formatStuff_replicate_append_false h] using this
    · have := ih (ones := 0) (by omega)
      simpa [stuffBits, hb, List.replicate_succ, formatStuff] using this
    · have := ih (ones := ones + 1) (by omega)
      simpa [stuffBits, hb, List.replicate_succ', List.append_assoc] using this

/-- The procedure stuffs a stretch as the format does. -/
theorem stuffBits_eq_formatStuff (l : List Bit) : (stuffBits 0 l).1 = formatStuff l :=
  (formatStuff_replicate_append (Nat.zero_le 4) l).symm

/-! ### The payload of a repetition (R86, R143) -/

theorem syncWords_eq_formatSyncs (n : Nat) : syncWords n = formatSyncs n := rfl

theorem endMarker_eq_formatEnd : endMarker = formatEnd := rfl

theorem formatUnitBits_cons (u : CodeUnit) (us : List CodeUnit) :
    formatUnitBits (u :: us) = (toBits u).toList ++ formatUnitBits us := rfl

/-- What `formatPayload` puts after the first stretch: the stretches of ten units, each behind its sync word, of a text
whose first such unit is number `n` of the text. -/
def formatStretches (n : Nat) (text : List CodeUnit) : List Bit :=
  (List.range ((text.length - n + 9) / 10)).flatMap fun j =>
    formatSyncs 1 ++ formatStuff (formatUnitBits ((text.drop (n + 10 * j)).take 10))

theorem formatPayload_eq (before : Nat) (text : List CodeUnit) :
    formatPayload before text =
      formatStuff (formatUnitBits (text.take (9 - before % 10))) ++ formatStretches (9 - before % 10) text := rfl

@[simp] theorem formatStretches_nil (n : Nat) : formatStretches n [] = [] := by
  simp [formatStretches]

/-- A unit before the first sync word. -/
@[simp] theorem formatStretches_succ_cons (n : Nat) (u : CodeUnit) (us : List CodeUnit) :
    formatStretches (n + 1) (u :: us) = formatStretches n us := by
  have hdrop (j : Nat) : (u :: us).drop (n + 1 + 10 * j) = us.drop (n + 10 * j) := by
    rw [Nat.add_right_comm, List.drop_succ_cons]
  simp only [formatStretches, hdrop, List.length_cons, Nat.add_sub_add_right]

/-- A unit that a sync word stands before begins a stretch of ten: nine more units come before the next sync word. -/
theorem formatStretches_zero_cons (u : CodeUnit) (us : List CodeUnit) :
    formatStretches 0 (u :: us) =
      sync ++ formatStuff ((toBits u).toList ++ formatUnitBits (us.take 9)) ++ formatStretches 9 us := by
  have hlen : ((u :: us).length - 0 + 9) / 10 = (us.length - 9 + 9) / 10 + 1 := by
    rw [List.length_cons]
    omega
  have hdrop (j : Nat) : (u :: us).drop (0 + 10 * (j + 1)) = us.drop (9 + 10 * j) := by
    rw [show 0 + 10 * (j + 1) = 9 + 10 * j + 1 by omega, List.drop_succ_cons]
  simp only [formatStretches, hlen, List.range_succ_eq_map, List.flatMap_cons, List.flatMap_map, Nat.succ_eq_add_one,
    hdrop]
  rfl

/-- The procedure over the units of one repetition: `frameCnt` tells how many units are left before the next sync word,
and counts the units modulo 10. -/
theorem encodeUnits_eq {frameCnt : Nat} (h : frameCnt ≤ 9) (ones : Nat) (text : List CodeUnit) :
    encodeUnits frameCnt ones text =
      ((stuffBits ones (formatUnitBits (text.take (9 - frameCnt)))).1 ++ formatStretches (9 - frameCnt) text,
        (frameCnt + text.length) % 10) := by
  induction text generalizing frameCnt ones with
  | nil => simp [encodeUnits, stuffBits, formatUnitBits, Nat.mod_eq_of_lt (Nat.lt_succ_of_le h)]
  | cons u us ih =>
    by_cases h9 : frameCnt = 9
    · have hcnt : (9 + (us.length + 1)) % 10 = us.length % 10 := by omega
      simp [encodeUnits, h9, ih, hcnt, formatUnitBits, formatStretches_zero_cons, ← stuffBits_eq_formatStuff,
        stuffBits_append, stuffBits]
    · have hne : frameCnt + 1 ≠ frameSize := fun hs => h9 (Nat.succ.inj hs)
      have hleft : 9 - frameCnt = 9 - (frameCnt + 1) + 1 := by omega
      have hcnt : frameCnt + (us.length + 1) = frameCnt + 1 + us.length := by omega
      simp [encodeUnits, hne, ih (frameCnt := frameCnt + 1) (by omega), hleft, hcnt, formatUnitBits_cons,
        stuffBits_append]

/-! ### A transmission (R83, R140) -/

/-- One repetition when `before` units were sent before it: the payload of the format, and `frameCnt` carried over. -/
theorem encodeUnits_eq_formatPayload (before : Nat) (text : List CodeUnit) :
    encodeUnits (before % 10) 0 text = (formatPayload before text, (before + text.length) % 10) := by
  rw [encodeUnits_eq (by omega), stuffBits_eq_formatStuff, formatPayload_eq, Nat.mod_add_mod]

/-- The repetitions number `k` to `k + n - 1`. -/
theorem encodeRepetitions_eq (text : List CodeUnit) (n k : Nat) :
    encodeRepetitions text n (k * text.length % 10) =
      (List.range n).flatMap fun j => formatSyncs 6 ++ formatPayload ((k + j) * text.length) text := by
  induction n generalizing k with
  | zero => rfl
  | succ n ih =>
    rw [encodeRepetitions, encodeUnits_eq_formatPayload, ← Nat.succ_mul]
    simp only [ih, syncWords_eq_formatSyncs, List.range_succ_eq_map, List.flatMap_cons, List.flatMap_map, Nat.add_zero,
      Nat.succ_eq_add_one, Nat.add_assoc, Nat.add_comm 1]

/-- The procedure of ENCODE produces the pre-differential sequence of the format. -/
theorem preSequence_eq_formatPre (p r : Nat) (text : List CodeUnit) : preSequence p r text = formatPre p r text := by
  have hrep := encodeRepetitions_eq text r 0
  simp only [Nat.zero_mul, Nat.zero_mod, Nat.zero_add] at hrep
  rw [preSequence, hrep, syncWords_eq_formatSyncs, endMarker_eq_formatEnd, formatPre]

/-- The line bits of ENCODE are the line code of the format. -/
theorem lineBits_eq_formatLine (p r : Nat) (text : List CodeUnit) :
    lineBits p r text = formatLine (formatPre p r text) := by
  rw [lineBits, differential_eq_formatLine, preSequence_eq_formatPre]

end Sys2Proof.Machine

namespace Sys2Proof.Proofs
open Sys2Proof.Machine Sys2Proof.Laws

/-- Settles O3: a word selects the row that has the mnemonic of its instruction, and no two rows share a mnemonic. -/
theorem everyWordSelectsExactlyOneRow : Obligations.EveryWordSelectsExactlyOneRow := by
  refine ⟨fun w => ?_, fun w w' hop => ?_, fun w hop s => exec_decode_of_reserved hop s⟩
  · obtain ⟨r, hr, hm⟩ := exists_row_of_instr (decode w)
    refine ⟨r, hr, (selects_iff hr w).2 hm, hm, fun r' hr' hs => ?_⟩
    exact opcodeTable_mnemonic_inj r hr r' hr' (((selects_iff hr' w).1 hs).trans hm.symm)
  · obtain ⟨r, hr, hm⟩ := exists_row_of_instr (decode w)
    have hs : r.selects w' = true := by rw [← selects_congr hr hop, selects_iff hr w, hm]
    exact hm.symm.trans ((selects_iff hr w').1 hs)

/-- Settles O4: the operations that take an operand read it from the fields that agree, the others read `op` only. -/
theorem unusedFieldsAreIgnored : Obligations.UnusedFieldsAreIgnored := by
  refine ⟨fun w w' hop hsetp hgetp hunit hbit => ?_, fun i => ⟨cmdSel_encode_eq_zero, cmdData_encode_lt_of_txpush,
    cmdData_encode_lt_of_bit, cmdData_encode_eq_zero⟩⟩
  have hdec : decode w = decode w' := by
    by_cases h1 : cmdOp w = 0x1
    · obtain ⟨hsel, hdata⟩ := hsetp h1
      rw [decode_eq_setp h1, decode_eq_setp (hop ▸ h1), hsel, hdata]
    by_cases h2 : cmdOp w = 0x2
    · rw [decode_eq_getp h2, decode_eq_getp (hop ▸ h2), hgetp h2]
    by_cases h5 : cmdOp w = 0x5
    · rw [decode_eq_txpush h5, decode_eq_txpush (hop ▸ h5), dataUnit, hunit h5, dataUnit]
    by_cases h8 : cmdOp w = 0x8
    · rw [decode_eq_linepush h8, decode_eq_linepush (hop ▸ h8), dataBit, hbit (.inl h8), dataBit]
    by_cases hA : cmdOp w = 0xA
    · rw [decode_eq_rxbit hA, decode_eq_rxbit (hop ▸ hA), dataBit, hbit (.inr hA), dataBit]
    exact decode_congr_of_no_operand hop h1 h2 h5 h8 hA
  exact ⟨hdec, fun s rest => by rw [step_cmd_cons, step_cmd_cons, hdec]⟩

/-- Settles O28, by the cases of `ENCODE`: its line bits are the format's (`lineBits_eq_formatLine`), and the hypotheses
exclude the refusals and the fault. -/
theorem encodeAppendsTheTransmission : Obligations.EncodeAppendsTheTransmission := by
  refine ⟨fun _ => decode_eq_encode, rfl, fun s text pre hrep hlen htext hpre hroom => ?_⟩
  obtain ⟨hbad, _⟩ | ⟨_, hlong, _⟩ | ⟨_, _, text', htext', hcase⟩ := execEncode_cases s
  · exact absurd hbad hrep
  · omega
  obtain rfl : text' = text := htext'.trans htext.symm
  rw [preSequence_eq_formatPre, lineBits_eq_formatLine, ← hpre] at hcase
  obtain ⟨_, hexec⟩ | ⟨hfull, _⟩ := hcase
  · exact hexec
  · rw [(s.lineRoom_iff pre.length).2 hroom] at hfull
    cases hfull

/-- Settles O30: the stage is the line code of the format, and its recurrence, solved for the input bit, recovers it. -/
theorem differentialStageXorsThePreviousOutput : Obligations.DifferentialStageXorsThePreviousOutput := by
  rintro pre _ rfl
  have hstep (n : Nat) (h : n + 1 < pre.length) : (differential false pre).getD (n + 1) false =
      (pre.getD (n + 1) false ^^ (differential false pre).getD n false) := getD_differential h
  refine ⟨differential_eq_formatLine pre, length_differential false pre, head?_differential pre, hstep, fun n h => ?_⟩
  rw [hstep n h, Bool.xor_assoc, Bool.xor_self, Bool.xor_false]

/-- Settles O2: a canonical word is its fields in their places (`toNat_mkCmd`), and each immediate fits the field. -/
theorem canonicalWordsAreThoseOfTheManual : Obligations.CanonicalWordsAreThoseOfTheManual := by
  refine ⟨rfl, fun sel data => ?_, fun sel => ?_, rfl, rfl, fun u => ?_, rfl, rfl, fun b => ?_, rfl, fun b => ?_, rfl,
    rfl, rfl, rfl, rfl⟩
  · simp [encode, toNat_mkCmd]
  · simp [encode, toNat_mkCmd]
  · simpa [encode, toNat_mkCmd] using u.isLt.trans (by decide : 2 ^ 8 < 2 ^ 32)
  · cases b <;> rfl
  · cases b <;> rfl

/-- Settles O5: `selOfCode` reads every selector back from its number, and `selCode` gives the numbers of the rule. -/
theorem selectorNumbersAreThoseOfTheManual : Obligations.SelectorNumbersAreThoseOfTheManual :=
  ⟨selOfCode_selCode .srate, selOfCode_selCode .tbps, selOfCode_selCode .tcar, selOfCode_selCode .repeatCount,
    selOfCode_selCode .preamble, selOfCode_selCode .gapms, selOfCode_selCode .status, selOfCode_selCode .psrate,
    selOfCode_selCode .spb, selOfCode_selCode .ppb, selOfCode_selCode .txlen, selOfCode_selCode .linelen,
    selOfCode_selCode .decstate, selOfCode_selCode .reserved6, selOfCode_selCode .reserved7,
    selOfCode_selCode .reserved15⟩

/-- Settles O6: the row's equation, with the immediate read from the word itself. -/
theorem immediatesAreTakenUnsignedFromData : Obligations.ImmediatesAreTakenUnsignedFromData := by
  intro w
  refine ⟨decode_eq_setp, fun h => ?_, fun h => ?_, fun h => ?_⟩
  · rw [decode_eq_txpush h, dataUnit_cmdData]
  · rw [decode_eq_linepush h, dataBit_cmdData]
  · rw [decode_eq_rxbit h, dataBit_cmdData]

end Sys2Proof.Proofs
end

/-! PROOFS. MPL (40_profile.md): the profile that DERIVE stores, the three cases of ConfigurationError, and the exact rates
of a profile (R112 to R115, 10_state.md R25). The lemmas come first, the theorems that settle the obligations last. -/

namespace Sys2Proof.Machine

/-! ### When `DERIVE` stores a profile and when it fails (R112, R113) -/

section
variable {s : State}

/-- The rate combinations that R113 does not exclude: the floors are stored. -/
theorem execDerive_of_rates (htb : 1 ≤ s.params.tbps.toNat) (hle : s.params.tbps.toNat ≤ s.params.srate.toNat)
    (hcar : s.params.srate.toNat ≤ s.params.tcar.toNat * (s.params.srate.toNat / s.params.tbps.toNat)) :
    exec .derive s = .next (s.storeProfile (s.params.srate.toNat / s.params.tbps.toNat)
      (s.params.tcar.toNat * (s.params.srate.toNat / s.params.tbps.toNat) / s.params.srate.toNat)) := by
  obtain ⟨_, _, _, hexec⟩ | ⟨hbad, _⟩ := execDerive_cases s
  · exact hexec
  · omega

/-- The three cases (c), (a), (b) of R113: the effect of R114. -/
theorem execDerive_of_bad_rates (hbad : s.params.tbps.toNat = 0 ∨ s.params.srate.toNat < s.params.tbps.toNat ∨
      s.params.tcar.toNat * (s.params.srate.toNat / s.params.tbps.toNat) < s.params.srate.toNat) :
    exec .derive s = .next s.configurationError := by
  obtain ⟨_, _, _, _⟩ | ⟨_, hexec⟩ := execDerive_cases s
  · omega
  · exact hexec

end

/-! ### The floors fit their registers (R111, R112) -/

/-- `SPB` is at most `SRATE`. -/
theorem toNat_ofNat_samplesPerBit (srate tbps : Word) :
    (BitVec.ofNat 32 (srate.toNat / tbps.toNat)).toNat = srate.toNat / tbps.toNat :=
  Nat.mod_eq_of_lt ((Nat.div_le_self _ _).trans_lt srate.isLt)

/-- `PPB` is at most `TCAR`, since `SPB` is at most `SRATE`. -/
theorem toNat_ofNat_periodsPerBit (srate tbps tcar : Word) :
    (BitVec.ofNat 32 (tcar.toNat * (srate.toNat / tbps.toNat) / srate.toNat)).toNat =
      tcar.toNat * (srate.toNat / tbps.toNat) / srate.toNat := by
  have hle : tcar.toNat * (srate.toNat / tbps.toNat) / srate.toNat ≤ tcar.toNat :=
    Nat.div_le_of_le_mul (by rw [Nat.mul_comm]; exact Nat.mul_le_mul_right _ (Nat.div_le_self _ _))
  exact Nat.mod_eq_of_lt (hle.trans_lt tcar.isLt)

/-! ### The exact views of a valid profile (R25) -/

section
variable {s : State}

theorem State.abps_of_pvalid (hp : s.status.pvalid = true) :
    s.abps = some ((s.profile.psrate.toNat : ℚ) / s.profile.spb.toNat) := if_pos hp

/-- The actual carrier is `PPB` times the actual bit rate. -/
theorem State.acar_of_pvalid (hp : s.status.pvalid = true) :
    s.acar = some ((s.profile.ppb.toNat : ℚ) * ((s.profile.psrate.toNat : ℚ) / s.profile.spb.toNat)) := by
  rw [State.acar, if_pos hp, mul_div_assoc]

/-- The angular frequency is that of the actual carrier at the sample rate. -/
theorem State.omega_of_pvalid (hp : s.status.pvalid = true) (hsr : 0 < s.profile.psrate.toNat) :
    s.omega = some (2 * Real.pi *
      (((s.profile.ppb.toNat : ℚ) * ((s.profile.psrate.toNat : ℚ) / s.profile.spb.toNat) : ℚ) : ℝ)
        / (s.profile.psrate.toNat : ℝ)) := by
  have hsr' : (s.profile.psrate.toNat : ℝ) ≠ 0 := Nat.cast_ne_zero.2 hsr.ne'
  rw [State.omega, if_pos hp]
  push_cast
  field_simp

end

/-! ### The floors against the exact rates (R112, R115) -/

/-- The actual bit rate is at least the target: `SPB` is rounded down. -/
theorem le_div_samplesPerBit {sr tb : Nat} (hspb : 0 < sr / tb) : (tb : ℚ) ≤ (sr : ℚ) / (sr / tb : ℕ) := by
  rw [le_div_iff₀ (Nat.cast_pos.2 hspb)]
  exact_mod_cast Nat.mul_div_le sr tb

/-- The actual carrier is at most the target: `PPB` is rounded down. -/
theorem periodsPerBit_mul_div_le {sr spb : Nat} (tc : Nat) (hspb : 0 < spb) :
    ((tc * spb / sr : ℕ) : ℚ) * ((sr : ℚ) / spb) ≤ tc := by
  rw [← mul_div_assoc, div_le_iff₀ (Nat.cast_pos.2 hspb)]
  exact_mod_cast Nat.div_mul_le_self (tc * spb) sr

/-- `PPB` computed without fractions (R111) is the floor of the carrier over the actual bit rate. -/
theorem periodsPerBit_eq_floor (sr spb tc : Nat) :
    ((tc * spb / sr : ℕ) : ℤ) = ⌊(tc : ℚ) / ((sr : ℚ) / spb)⌋ := by
  rw [div_div_eq_mul_div, ← Nat.cast_mul, Rat.floor_natCast_div_natCast, Int.natCast_ediv]

/-! ### Who writes the profile (R24, R113) -/

/-- No command but `DERIVE` touches the profile, `PVALID` or `CFGERR`. -/
theorem exec_profile_of_ne_derive {i : Instr} {s t : State} (hne : i ≠ .derive) (h : exec i s = .next t) :
    t.profile = s.profile ∧ t.status.pvalid = s.status.pvalid ∧ t.status.cfgerr = s.status.cfgerr := by
  cases exec_transition h with
  | derive | deriveFailed => exact absurd rfl hne
  | setp _ _ _ _ _ ht => rw [(State.writeReg_eq_some ht).1]; exact ⟨rfl, rfl, rfl⟩
  | _ => exact ⟨rfl, rfl, rfl⟩

end Sys2Proof.Machine

namespace Sys2Proof.Proofs
open Sys2Proof.Machine

/-- Settles O21, by the two cases of `DERIVE`: the registers hold the floors without loss, and the views are those of a
valid profile. -/
theorem deriveStoresTheProfileOrFails : Obligations.DeriveStoresTheProfileOrFails := by
  refine ⟨fun _ => decode_eq_derive, rfl, ?_, fun i s t hne h => ?_⟩
  · rintro s _ _ _ rfl rfl rfl
    refine ⟨fun htb hle hcar => ?_, execDerive_of_bad_rates⟩
    have hppb := toNat_ofNat_periodsPerBit s.params.srate s.params.tbps s.params.tcar
    have hspb := toNat_ofNat_samplesPerBit s.params.srate s.params.tbps
    refine ⟨_, _, _, _, _, hspb, hppb, rfl, execDerive_of_rates htb hle hcar, rfl, State.abps_of_pvalid rfl, ?_, rfl,
      State.acar_of_pvalid rfl, State.omega_of_pvalid rfl (htb.trans hle)⟩
    rw [hppb, hspb]
    exact periodsPerBit_eq_floor _ _ _
  · obtain ⟨_, _, hcfgerr⟩ := exec_profile_of_ne_derive hne h
    exact hcfgerr

/-- Settles O22: a `DERIVE` that completes stored the two floors, whose roundings give the bounds; it left the rates, from
which a second `DERIVE` stores the same profile. -/
theorem derivedRatesAreExactAndIdempotent : Obligations.DerivedRatesAreExactAndIdempotent := by
  intro s t h hp
  obtain ⟨htb, hle, hcar, hexec⟩ | ⟨_, hexec⟩ := execDerive_cases s <;> rw [hexec] at h <;> cases h
  · have hpos : 0 < s.params.srate.toNat / s.params.tbps.toNat := Nat.div_pos hle htb
    have hppb := toNat_ofNat_periodsPerBit s.params.srate s.params.tbps s.params.tcar
    have hspb := toNat_ofNat_samplesPerBit s.params.srate s.params.tbps
    refine ⟨⟨_, _, State.abps_of_pvalid hp, State.acar_of_pvalid hp, ?_, ?_, ?_, rfl,
      State.omega_of_pvalid hp (htb.trans hle)⟩, execDerive_of_rates htb hle hcar⟩ <;>
      simp only [State.storeProfile_params, State.storeProfile_profile, hspb, hppb]
    · exact le_div_samplesPerBit hpos
    · exact periodsPerBit_mul_div_le _ hpos
    · exact mul_div_cancel₀ _ (Nat.cast_ne_zero.2 hpos.ne')
  · cases hp

end Sys2Proof.Proofs

/-! PROOFS. BBC (41_bytebits.md): the binary digits of a code unit, the two converters place by place, and their round trips
(R126 to R128). The lemmas come first, the theorems that settle the obligations last. -/

namespace Sys2Proof.Machine

/-! ### `toBits` place by place (R126) -/

/-- R126's `v[i] = (v div 2^i) mod 2`, counted from the most significant bit. -/
theorem getMsbD_eq_decide (v : CodeUnit) {i : Nat} (hi : i < 8) :
    v.getMsbD i = decide (v.toNat / 2 ^ (7 - i) % 2 = 1) := by
  rw [BitVec.getMsbD_eq_getLsbD, decide_eq_true hi, Bool.true_and, BitVec.getLsbD, Nat.testBit_eq_decide_div_mod_eq]

theorem getElem_toBits (v : CodeUnit) {i : Nat} (hi : i < 8) : (toBits v)[i] = v.getMsbD i := by
  interval_cases i <;> rfl

/-! ### `fromBits` place by place (R127)

The weights are the distinct powers of two below 256 and a bit counts at most once, so no sum overflows a code unit and no
place carries into the next. -/

theorem toNat_getElem_le_one (s : Vector Bit 8) :
    s[0].toNat ≤ 1 ∧ s[1].toNat ≤ 1 ∧ s[2].toNat ≤ 1 ∧ s[3].toNat ≤ 1 ∧ s[4].toNat ≤ 1 ∧ s[5].toNat ≤ 1 ∧
    s[6].toNat ≤ 1 ∧ s[7].toNat ≤ 1 :=
  ⟨s[0].toNat_le, s[1].toNat_le, s[2].toNat_le, s[3].toNat_le, s[4].toNat_le, s[5].toNat_le, s[6].toNat_le,
    s[7].toNat_le⟩

theorem toNat_fromBits (s : Vector Bit 8) : (fromBits s).toNat =
    128 * s[0].toNat + 64 * s[1].toNat + 32 * s[2].toNat + 16 * s[3].toNat + 8 * s[4].toNat + 4 * s[5].toNat
      + 2 * s[6].toNat + s[7].toNat := by
  have hbits := toNat_getElem_le_one s
  rw [fromBits, BitVec.toNat_ofNat, Nat.one_mul]
  exact Nat.mod_eq_of_lt (by omega)

/-- The places to the left of `i` weigh even multiples of `2 ^ (7 - i)`, those to the right add up to less than it. -/
theorem toNat_fromBits_div_mod (s : Vector Bit 8) {i : Nat} (hi : i < 8) :
    (fromBits s).toNat / 2 ^ (7 - i) % 2 = s[i].toNat := by
  have hbits := toNat_getElem_le_one s
  rw [toNat_fromBits]
  interval_cases i <;> omega

theorem getMsbD_fromBits (s : Vector Bit 8) {i : Nat} (hi : i < 8) : (fromBits s).getMsbD i = s[i] := by
  rw [getMsbD_eq_decide _ hi, toNat_fromBits_div_mod s hi]
  simp

/-! ### The round trips (R128) -/

@[simp] theorem fromBits_toBits (v : CodeUnit) : fromBits (toBits v) = v :=
  BitVec.eq_of_getMsbD_eq fun _ hi => (getMsbD_fromBits _ hi).trans (getElem_toBits v hi)

@[simp] theorem toBits_fromBits (s : Vector Bit 8) : toBits (fromBits s) = s :=
  Vector.ext fun _ hi => (getElem_toBits _ hi).trans (getMsbD_fromBits s hi)

end Sys2Proof.Machine

namespace Sys2Proof.Proofs
open Sys2Proof.Machine

/-- Settles O23: each place of `toBits v` is its binary digit of `v`, and the weighted sum is stored without loss. -/
theorem byteBitsAreMostSignificantFirst : Obligations.ByteBitsAreMostSignificantFirst := by
  refine ⟨fun v => List.ext_getElem (by simp) fun i hi _ => ?_, toNat_fromBits⟩
  have hi8 : i < 8 := by simpa using hi
  simpa using (getElem_toBits v hi8).trans (getMsbD_eq_decide v hi8)

/-- Settles O24: `toBits` and `fromBits` agree with the digits of the code unit at every place. -/
theorem byteBitsRoundTrip : Obligations.ByteBitsRoundTrip :=
  ⟨fromBits_toBits, toBits_fromBits⟩

end Sys2Proof.Proofs

/-! PROOFS. FENC (42_encoder.md): what TXPUSH and ENCODE do in each of their cases (R137, R139), and TXCLR (R136). The lemmas
come first, the theorems that settle the obligations last. -/

namespace Sys2Proof.Machine

section
variable {s : State}

/-! ### `TXPUSH` (R137) -/

theorem execTxpush_of_full (h : s.txlen.toNat = s.cfg.txbufSize) (u : CodeUnit) :
    exec (.txpush u) s = .next (s.refuse .txovf) := by
  obtain ⟨_, hexec⟩ | ⟨hlt, _⟩ | ⟨hgt, _⟩ := execTxpush_cases u s
  · exact hexec
  · omega
  · omega

theorem execTxpush_of_lt (h : s.txlen.toNat < s.cfg.txbufSize) (u : CodeUnit) :
    exec (.txpush u) s = .next { s with txbuf := Memory.write s.txbuf s.txlen.toNat u, txlen := s.txlen + 1 } := by
  obtain ⟨heq, _⟩ | ⟨_, hexec⟩ | ⟨hgt, _⟩ := execTxpush_cases u s
  · omega
  · exact hexec
  · omega

/-- `TXLEN` does not wrap: a legal `TXBUF_SIZE` (R8) is itself a 32-bit number. -/
theorem toNat_txlen_add_one (hcfg : s.cfg.wf) (h : s.txlen.toNat < s.cfg.txbufSize) :
    (s.txlen + 1).toNat = s.txlen.toNat + 1 := by
  obtain ⟨_, hmax⟩ := hcfg
  have hfits : s.txlen.toNat + (1 : Word).toNat < 2 ^ 32 := by
    change s.txlen.toNat + 1 < 2 ^ 32
    omega
  exact BitVec.toNat_add_of_lt hfits

/-! ### The refusals of `ENCODE` (R139) -/

/-- Case (a): tested before the text is read, so `TXLEN` does not matter. -/
theorem execEncode_of_repeat_zero (h : s.params.repeatCount = 0) : exec .encode s = .next (s.refuse .badarg) := by
  obtain ⟨_, hexec⟩ | ⟨hne, _⟩ | ⟨hne, _⟩ := execEncode_cases s
  · exact hexec
  · exact absurd h hne
  · exact absurd h hne

/-- Case (b), for the transmission as the format writes it: as many line bits as bits before the differential stage. -/
theorem execEncode_of_no_room {depth : Nat} (hrep : s.params.repeatCount ≠ 0) (hlen : s.txlen.toNat ≤ s.cfg.txbufSize)
    (hdepth : s.cfg.lineDepth = some depth)
    (hlong : depth < s.line.length + (formatPre s.params.preamble.toNat s.params.repeatCount.toNat
      ((List.range s.txlen.toNat).map (Memory.read s.txbuf))).length) :
    exec .encode s = .next (s.refuse .lineovf) := by
  obtain ⟨hbad, _⟩ | ⟨_, hout, _⟩ | ⟨_, _, _, rfl, hcase⟩ := execEncode_cases s
  · exact absurd hbad hrep
  · omega
  rw [preSequence_eq_formatPre] at hcase
  obtain ⟨hroom, _⟩ | ⟨_, hexec⟩ := hcase
  · have hfit := (s.lineRoom_iff _).1 hroom depth hdepth
    omega
  · exact hexec

end

end Sys2Proof.Machine

namespace Sys2Proof.Proofs
open Sys2Proof.Machine

/-- Settles O26: a push inside the buffer is a `Memory.write`, whose reads and canonical form are those of
`Memory.read_write` and `Memory.wf_write`. -/
theorem txpushWritesAtTxlen : Obligations.TxpushWritesAtTxlen := by
  obtain ⟨_, _, _, _, _, hword, _⟩ := canonicalWordsAreThoseOfTheManual
  refine ⟨fun w hop => ?_, hword, fun s u hcfg hmem => ⟨fun hfull => execTxpush_of_full hfull u, fun hlt => ?_⟩⟩
  · rw [decode_eq_txpush hop, dataUnit_cmdData]
  · exact ⟨_, _, toNat_txlen_add_one hcfg hlt, execTxpush_of_lt hlt u, Memory.wf_write hmem _ u,
      Memory.read_write hmem _ u⟩

/-- Settles O29: the two refusals in the order of the rule; what is left completes as O28 says. -/
theorem encodeIsRefusedWhole : Obligations.EncodeIsRefusedWhole := by
  obtain ⟨_, _, hcompletes⟩ := encodeAppendsTheTransmission
  refine fun s => ⟨execEncode_of_repeat_zero, fun hrep hlen text pre htext hpre =>
    ⟨fun depth hdepth hlong => ?_, hcompletes s text pre hrep hlen htext hpre⟩⟩
  subst htext hpre
  exact execEncode_of_no_room hrep hlen hdepth hlong

/-- Settles O25: `TXCLR` has one case, which writes `TXLEN` alone. -/
theorem txclrEmptiesTheText : Obligations.TxclrEmptiesTheText :=
  ⟨fun _ => decode_eq_txclr, rfl, fun _ => rfl⟩

end Sys2Proof.Proofs

/-! PROOFS. FDEC (43_decoder.md): one `RXBIT` in each mode (R165 to R169), `RXRESET` (R180), and the round trip of a
transmission (R177). The lemmas come first, the theorems that settle the obligations last. -/

namespace Sys2Proof.Machine

/-! ### One per-bit step in each mode (R165 to R169)

`d` is the decoder before the step, `e` the one after step 1 and the common part (R161, R164). -/

section
variable {d e : Decoder} {raw : Bit}

theorem Decoder.rxStep_of_skipOne (hmode : d.mode = .skipOne) (raw : Bit) :
    d.rxStep raw =
      ({ d with lastRaw := raw, mode := if (d.lastRaw ^^ raw) then .skipTwo else .decode }, none) := by
  rw [Decoder.rxStep, hmode]
  cases h : (d.lastRaw ^^ raw) <;> simp [Decoder.recovered, Decoder.skipOneArm, h]

theorem Decoder.rxStep_of_skipTwo (hmode : d.mode = .skipTwo) (raw : Bit) :
    d.rxStep raw =
      (if (d.lastRaw ^^ raw) then ({ d with lastRaw := raw } : Decoder).desyncReset
        else { d with lastRaw := raw, bitCnt := 0, mode := .decode }, none) := by
  rw [Decoder.rxStep, hmode]
  rfl

theorem Decoder.wrapBitCnt_eq (d : Decoder) :
    d.wrapBitCnt = { d with bitCnt := if d.bitCnt = 8 then 0 else d.bitCnt } := by
  rw [Decoder.wrapBitCnt]
  split <;> rfl

theorem Decoder.rxStep_of_waitSync (hmode : d.mode = .waitSync)
    (he : e = ({ d with lastRaw := raw } : Decoder).shiftIn (d.lastRaw ^^ raw)) :
    d.rxStep raw = (e.waitSyncArm, none) := by
  simp only [Decoder.rxStep, hmode, he, Decoder.recovered]

theorem Decoder.rxStep_of_waitStart (hmode : d.mode = .waitStart)
    (he : e = ({ d with lastRaw := raw } : Decoder).shiftIn (d.lastRaw ^^ raw)) :
    d.rxStep raw = (e.waitStartArm, none) := by
  simp only [Decoder.rxStep, hmode, he, Decoder.recovered]

/-- The two tests of Decode, each on its own register; the byte is the value of `shiftBuf` (R127, R169). -/
theorem Decoder.rxStep_of_decode (hmode : d.mode = .decode)
    (he : e = ({ d with lastRaw := raw } : Decoder).shiftIn (d.lastRaw ^^ raw)) :
    d.rxStep raw =
      ({ e with
          bitCnt := if e.bitCnt = 8 then 0 else e.bitCnt
          onesCnt := if e.onesCnt = 5 then 0 else e.onesCnt
          mode := if e.onesCnt = 5 then .skipOne else .decode },
        if e.bitCnt = 8 then some e.shiftBuf else none) := by
  have hstep : d.rxStep raw = (e.decodeArm, e.completedByte) := by
    simp only [Decoder.rxStep, hmode, he, Decoder.recovered]
  have hdec : e.mode = .decode := by rw [he, ← hmode]; rfl
  have hfive : e.onesCnt.toNat = maxOnes ↔ e.onesCnt = 5 := BitVec.toNat_inj (y := 5#3)
  simp only [hstep, Decoder.decodeArm, Decoder.completedByte, fromBits_toBits, Decoder.wrapBitCnt_eq, hfive]
  split
  · rfl
  · rw [← hdec]

/-! ### The arms of WaitSync and WaitStart (R167, R168) -/

theorem Decoder.waitSyncArm_of_sync (h : e.shiftBuf = 0x7E) :
    e.waitSyncArm = { e with bitCnt := 0, onesCnt := 0, syncRun := 0, mode := e.resumeMode.toMode } := if_pos h

theorem Decoder.waitSyncArm_of_ne_sync (h : e.shiftBuf ≠ 0x7E) :
    e.waitSyncArm = { e with bitCnt := if e.bitCnt = 8 then 0 else e.bitCnt } := by
  rw [Decoder.waitSyncArm, if_neg h, Decoder.wrapBitCnt_eq]

theorem Decoder.waitStartArm_of_inside_byte (h : e.bitCnt ≠ 8) : e.waitStartArm = e := if_neg h

theorem Decoder.waitStartArm_of_other_byte (h8 : e.bitCnt = 8) (h : e.shiftBuf ≠ 0x7E) :
    e.waitStartArm = { e with bitCnt := 0, syncRun := 0 } := by
  have hnot : ¬ startSyncs ≤ 0 := by decide
  rw [Decoder.waitStartArm, if_pos h8, Decoder.nextSyncRun, if_neg h, if_neg hnot]
  rfl

theorem Decoder.waitStartArm_of_sync (h8 : e.bitCnt = 8) (h : e.shiftBuf = 0x7E) (hrun : e.syncRun.toNat + 1 < 5) :
    e.waitStartArm = { e with bitCnt := 0, syncRun := e.syncRun + 1 } := by
  have hnot : ¬ startSyncs ≤ e.syncRun.toNat + 1 := Nat.not_le.2 hrun
  have hnext : BitVec.ofNat 3 (e.syncRun.toNat + 1) = e.syncRun + 1 := by
    rw [BitVec.ofNat_add, BitVec.ofNat_toNat, BitVec.setWidth_eq]
    rfl
  rw [Decoder.waitStartArm, if_pos h8, Decoder.nextSyncRun, if_pos h, if_neg hnot, hnext]

theorem Decoder.waitStartArm_of_last_sync (h8 : e.bitCnt = 8) (h : e.shiftBuf = 0x7E)
    (hrun : 5 ≤ e.syncRun.toNat + 1) :
    e.waitStartArm =
      { e with bitCnt := 0, onesCnt := 0, syncRun := 0, resumeMode := .decode, mode := .decode } := by
  rw [Decoder.waitStartArm, if_pos h8, Decoder.nextSyncRun, if_pos h, if_pos hrun]

end

/-- An `RXBIT` that completes no byte changes the decoder registers alone. -/
theorem execRxbit_of_no_byte {s : State} {raw : Bit} {d : Decoder} (h : s.dec.rxStep raw = (d, none)) :
    exec (.rxbit raw) s = .next { s with dec := d } := by
  simp [execRxbit_eq, h]

/-! ### A run over pre-differential bits (R161) -/

@[simp] theorem Decoder.waitSyncArm_lastRaw (d : Decoder) : d.waitSyncArm.lastRaw = d.lastRaw := by
  by_cases h : d.shiftBuf = 0x7E
  · rw [waitSyncArm_of_sync h]
  · rw [waitSyncArm_of_ne_sync h]

@[simp] theorem Decoder.waitStartArm_lastRaw (d : Decoder) : d.waitStartArm.lastRaw = d.lastRaw := by
  rw [Decoder.waitStartArm]
  split_ifs <;> rfl

/-- Step 1 writes `lastRaw`, and no arm writes it again. -/
theorem Decoder.rxStep_lastRaw (d : Decoder) (raw : Bit) : (d.rxStep raw).1.lastRaw = raw := by
  cases h : d.mode with
  | waitSync => rw [rxStep_of_waitSync h rfl, waitSyncArm_lastRaw]; rfl
  | waitStart => rw [rxStep_of_waitStart h rfl, waitStartArm_lastRaw]; rfl
  | decode => rw [rxStep_of_decode h rfl]; rfl
  | skipOne => rw [rxStep_of_skipOne h]
  | skipTwo => rw [rxStep_of_skipTwo h]; split <;> rfl

theorem Decoder.rxRun_lastRaw (d : Decoder) (bits : List Bit) : (d.rxRun bits).1.lastRaw = bits.getLastD d.lastRaw := by
  induction bits generalizing d with
  | nil => rfl
  | cons b bs ih => rw [Decoder.rxRun, ih, rxStep_lastRaw, List.getLastD_cons]

/-- The run over the line bits that carry `pre`, sent from the line level that the decoder saw last. -/
def Decoder.preRun (d : Decoder) (pre : List Bit) : Decoder × List CodeUnit := d.rxRun (differential d.lastRaw pre)

theorem Decoder.preRun_nil (d : Decoder) : d.preRun [] = (d, []) := rfl

theorem Decoder.preRun_append (d : Decoder) (a b : List Bit) :
    d.preRun (a ++ b) = (((d.preRun a).1.preRun b).1, (d.preRun a).2 ++ ((d.preRun a).1.preRun b).2) := by
  simp only [preRun, differential_append, rxRun_append, rxRun_lastRaw]

theorem Decoder.preRun_cons {d e : Decoder} {b : Bit} {out : Option CodeUnit} (h : d.rxStep (b ^^ d.lastRaw) = (e, out))
    (bs : List Bit) : d.preRun (b :: bs) = ((e.preRun bs).1, out.toList ++ (e.preRun bs).2) := by
  have hraw : e.lastRaw = (b ^^ d.lastRaw) := by simpa [h] using d.rxStep_lastRaw (b ^^ d.lastRaw)
  simp only [preRun, differential, Decoder.rxRun, h, hraw]

/-! ### A locked decoder (R169, R170) -/

/-- The rolling buffer with one more bit (R164). -/
def shiftBit (buf : BitVec 8) (b : Bit) : BitVec 8 := (buf <<< 1) ||| (BitVec.ofBool b).setWidth 8

/-- The eight bits of a unit fill the buffer: what it held before is shifted out. -/
theorem foldl_shiftBit_toBits (buf : BitVec 8) (u : CodeUnit) : (toBits u).toList.foldl shiftBit buf = u := by
  refine BitVec.eq_of_getLsbD_eq fun i hi => ?_
  interval_cases i <;> simp [toBits, shiftBit]

/-- A decoder in Decode, `cnt` bits into a byte, with `ones` ones counted. -/
def Decoder.decoding (buf : BitVec 8) (cnt ones : Nat) (raw : Bit) : Decoder :=
  { mode := .decode, resumeMode := .decode, shiftBuf := buf, bitCnt := BitVec.ofNat 4 cnt,
    onesCnt := BitVec.ofNat 3 ones, syncRun := 0, lastRaw := raw }

section
variable {cnt ones : Nat}

/-- The common part on small counts, where neither wraps nor saturates. -/
theorem Decoder.shiftIn_decoding (hones : ones ≤ 4) (buf : BitVec 8) (cnt : Nat) (raw b : Bit) :
    (decoding buf cnt ones raw).shiftIn b = decoding (shiftBit buf b) (cnt + 1) (if b then ones + 1 else 0) raw := by
  have hcount : (if b then (if BitVec.ofNat 3 ones = 7 then 7 else BitVec.ofNat 3 ones + 1) else 0) =
      BitVec.ofNat 3 (if b then ones + 1 else 0) := by
    interval_cases ones <;> cases b <;> rfl
  rw [decoding, decoding, ← hcount, BitVec.ofNat_add]
  rfl

/-- The byte test of Decode on small counts: `bitCnt` counts modulo 8. -/
theorem bitCnt_wrap (hcnt : cnt ≤ 7) {c : BitVec 4} (hc : c = BitVec.ofNat 4 (cnt + 1)) :
    (c = 8 ↔ cnt = 7) ∧ (if c = 8 then 0 else c) = BitVec.ofNat 4 ((cnt + 1) % 8) := by
  subst hc
  interval_cases cnt <;> decide

/-- The ones test of Decode: `onesCnt` counts as `encOnes` does (R144, R170). -/
theorem onesCnt_wrap (hones : ones ≤ 4) (b : Bit) {c : BitVec 3} (hc : c = BitVec.ofNat 3 (if b then ones + 1 else 0)) :
    (c = 5 ↔ b = true ∧ ones = 4) ∧ (if c = 5 then 0 else c) = BitVec.ofNat 3 (stuffBit ones b).2 := by
  subst hc
  interval_cases ones <;> cases b <;> decide

/-- A payload bit in Decode is shifted in; `onesCnt` then counts as `encOnes` does, and a bit that is followed by a stuffed
one leads to SkipOne. -/
theorem Decoder.rxStep_decoding (hcnt : cnt ≤ 7) (hones : ones ≤ 4) (buf : BitVec 8) (raw b : Bit) :
    (decoding buf cnt ones raw).rxStep (b ^^ raw) =
      ({ decoding (shiftBit buf b) ((cnt + 1) % 8) (stuffBit ones b).2 (b ^^ raw) with
          mode := if b = true ∧ ones = 4 then .skipOne else .decode },
        if cnt = 7 then some (shiftBit buf b) else none) := by
  have hrec : (raw ^^ (b ^^ raw)) = b := (decoding buf cnt ones raw).recovered_differential b
  have hshift := shiftIn_decoding hones buf cnt (b ^^ raw) b
  obtain ⟨h8, hcnt8⟩ := bitCnt_wrap hcnt (congrArg Decoder.bitCnt hshift)
  obtain ⟨h5, hones5⟩ := onesCnt_wrap hones b (congrArg Decoder.onesCnt hshift)
  rw [rxStep_of_decode (e := (decoding buf cnt ones (b ^^ raw)).shiftIn b) rfl (congrArg _ hrec.symm), hcnt8, hones5]
  simp only [h8, h5]
  rfl

/-- The stuffing stage never counts to five between two bits. -/
theorem stuffBit_snd_le (hones : ones ≤ 4) (b : Bit) : (stuffBit ones b).2 ≤ 4 := by
  obtain ⟨_, h⟩ | ⟨_, _, h⟩ | ⟨_, hne, h⟩ := stuffBit_cases ones b <;> rw [h]
  · exact Nat.zero_le 4
  · exact Nat.zero_le 4
  · exact Nat.lt_of_le_of_ne hones hne

theorem stuffBits_snd_le (hones : ones ≤ 4) (bs : List Bit) : (stuffBits ones bs).2 ≤ 4 := by
  induction bs generalizing ones with
  | nil => exact hones
  | cons b bs ih => exact ih (stuffBit_snd_le hones b)

/-- The stuffed `0` after the fifth one is consumed in SkipOne, and the byte goes on (R170). -/
theorem Decoder.preRun_stuffBit (hcnt : cnt ≤ 7) (hones : ones ≤ 4) (buf : BitVec 8) (raw b : Bit) :
    (decoding buf cnt ones raw).preRun (stuffBit ones b).1 =
      (decoding (shiftBit buf b) ((cnt + 1) % 8) (stuffBit ones b).2 (b ^^ raw),
        if cnt = 7 then [shiftBit buf b] else []) := by
  have hstep := rxStep_decoding hcnt hones buf raw b
  by_cases h : b = true ∧ ones = 4
  · obtain ⟨rfl, rfl⟩ := h
    rw [if_pos ⟨rfl, rfl⟩] at hstep
    refine (preRun_cons hstep _).trans ?_
    rw [apply_ite Option.toList, preRun_cons (rxStep_of_skipOne rfl _), preRun_nil]
    cases raw <;> simp [decoding, stuffBit]
  · have hbits : (stuffBit ones b).1 = [b] := by
      obtain ⟨rfl, hb⟩ | ⟨rfl, rfl, _⟩ | ⟨rfl, _, hb⟩ := stuffBit_cases ones b
      · rw [hb]
      · exact absurd ⟨rfl, rfl⟩ h
      · rw [hb]
    rw [if_neg h] at hstep
    rw [hbits, preRun_cons hstep, preRun_nil, apply_ite Option.toList, List.append_nil]
    rfl

/-- Bits up to the end of the byte: with the eighth one the byte is emitted. -/
theorem Decoder.preRun_stuffBits (hones : ones ≤ 4) {bs : List Bit} (hcnt : cnt ≤ 7) (hlen : cnt + bs.length ≤ 8)
    (buf : BitVec 8) (raw : Bit) :
    ∃ raw', (decoding buf cnt ones raw).preRun (stuffBits ones bs).1 =
      (decoding (bs.foldl shiftBit buf) ((cnt + bs.length) % 8) (stuffBits ones bs).2 raw',
        if cnt + bs.length = 8 then [bs.foldl shiftBit buf] else []) := by
  induction bs generalizing cnt ones buf raw with
  | nil =>
    have hne : cnt ≠ 8 := by omega
    have hmod : cnt % 8 = cnt := Nat.mod_eq_of_lt (by omega)
    exact ⟨raw, by simp [stuffBits, preRun_nil, hne, hmod]⟩
  | cons b bs ih =>
    rw [List.length_cons] at hlen
    have hbit := preRun_stuffBit hcnt hones buf raw b
    by_cases h7 : cnt = 7
    · obtain rfl : bs = [] := List.eq_nil_of_length_eq_zero (by omega)
      subst h7
      exact ⟨b ^^ raw, by simpa [stuffBits] using hbit⟩
    · rw [if_neg h7, Nat.mod_eq_of_lt (show cnt + 1 < 8 by omega)] at hbit
      obtain ⟨raw', hrest⟩ := ih (cnt := cnt + 1) (stuffBit_snd_le hones b) (by omega) (by omega) (shiftBit buf b)
        (b ^^ raw)
      refine ⟨raw', ?_⟩
      rw [stuffBits, preRun_append, hbit, hrest, List.length_cons, Nat.add_right_comm, Nat.add_assoc]
      rfl

/-- All but the last bit of a sync word: the sixth one in a row leads to SkipTwo (R171, R174). -/
theorem Decoder.preRun_dropLast_sync (hones : ones ≤ 4) (buf : BitVec 8) (raw : Bit) :
    ∃ raw', (decoding buf 0 ones raw).preRun sync.dropLast =
      ({ decoding ((sync.take 6).foldl shiftBit buf) 6 0 raw' with mode := .skipTwo }, []) := by
  have hsplit : sync.dropLast = (stuffBits ones (sync.take 5)).1 ++ [true, true] := rfl
  obtain ⟨raw', (hfour : (decoding buf 0 ones raw).preRun (stuffBits ones (sync.take 5)).1 =
      (decoding ((sync.take 5).foldl shiftBit buf) 5 4 raw', []))⟩ :=
    preRun_stuffBits hones (bs := sync.take 5) (Nat.zero_le 7) (by decide) buf raw
  have hfifth := rxStep_decoding (cnt := 5) (by decide) (le_refl 4) ((sync.take 5).foldl shiftBit buf) raw' true
  rw [if_pos ⟨rfl, rfl⟩] at hfifth
  have hlast : (decoding ((sync.take 5).foldl shiftBit buf) 5 4 raw').preRun [true, true] =
      ({ decoding ((sync.take 6).foldl shiftBit buf) 6 0 raw' with mode := .skipTwo }, []) := by
    refine (preRun_cons hfifth [true]).trans ?_
    cases raw' <;> rfl
  exact ⟨raw', by rw [hsplit, preRun_append, hfour, hlast]; rfl⟩

end

/-! ### What a locked decoder reads, from byte boundary to byte boundary (R170, R171) -/

/-- In Decode at a byte boundary, with `ones` ones counted, the recovered bits `pre` give the bytes `out` and leave the
decoder in Decode at a byte boundary again, with `ones'` ones counted. -/
def Decoder.Reads (ones : Nat) (pre : List Bit) (ones' : Nat) (out : List CodeUnit) : Prop :=
  ∀ buf raw, ∃ buf' raw', (decoding buf 0 ones raw).preRun pre = (decoding buf' 0 ones' raw', out)

section
variable {ones mid ones' : Nat} {a b : List Bit} {out out' : List CodeUnit}

theorem Decoder.Reads.nil (ones : Nat) : Reads ones [] ones [] := fun buf raw => ⟨buf, raw, rfl⟩

theorem Decoder.Reads.append (ha : Reads ones a mid out) (hb : Reads mid b ones' out') :
    Reads ones (a ++ b) ones' (out ++ out') := by
  intro buf raw
  obtain ⟨buf₁, raw₁, h₁⟩ := ha buf raw
  obtain ⟨buf₂, raw₂, h₂⟩ := hb buf₁ raw₁
  exact ⟨buf₂, raw₂, by rw [preRun_append, h₁, h₂]⟩

/-- Payload (R170): a unit, stuffed from the count the decoder has, is read back. -/
theorem Decoder.reads_unit (hones : ones ≤ 4) (u : CodeUnit) :
    Reads ones (stuffBits ones (toBits u).toList).1 (stuffBits ones (toBits u).toList).2 [u] := by
  intro buf raw
  obtain ⟨raw', h⟩ := preRun_stuffBits hones (bs := (toBits u).toList) (Nat.zero_le 7) (by simp) buf raw
  rw [foldl_shiftBit_toBits] at h
  exact ⟨u, raw', by simpa using h⟩

/-- A sync word is passed over: its last bit begins a new byte (R171). -/
theorem Decoder.preRun_sync (hones : ones ≤ 4) (buf : BitVec 8) (raw : Bit) :
    ∃ raw', (decoding buf 0 ones raw).preRun sync = (decoding ((sync.take 6).foldl shiftBit buf) 0 0 raw', []) := by
  have hsplit : sync = sync.dropLast ++ [false] := rfl
  obtain ⟨raw', h⟩ := preRun_dropLast_sync hones buf raw
  refine ⟨raw', ?_⟩
  rw [hsplit, preRun_append, h]
  cases raw' <;> rfl

theorem Decoder.reads_sync (hones : ones ≤ 4) : Reads ones sync 0 [] :=
  fun buf raw => ⟨_, preRun_sync hones buf raw⟩

theorem Decoder.reads_syncWords (n : Nat) : Reads 0 (syncWords n) 0 [] := by
  induction n with
  | zero => exact .nil 0
  | succ n ih => exact syncWords_succ n ▸ (reads_sync (Nat.zero_le 4)).append ih

/-- A start burst in Decode, as before each repetition but the first (R171). -/
theorem Decoder.reads_burst (hones : ones ≤ 4) : Reads ones (syncWords (startSyncs + 1)) 0 [] :=
  syncWords_succ startSyncs ▸ (reads_sync hones).append (reads_syncWords startSyncs)

theorem Decoder.reads_encodeUnits (hones : ones ≤ 4) (frameCnt : Nat) (text : List CodeUnit) :
    ∃ ones' ≤ 4, Reads ones (encodeUnits frameCnt ones text).1 ones' text := by
  induction text generalizing frameCnt ones with
  | nil => exact ⟨ones, hones, .nil ones⟩
  | cons u us ih =>
    rw [encodeUnits]
    split
    · obtain ⟨ones', hle, hrest⟩ := ih (stuffBits_snd_le (Nat.zero_le 4) (toBits u).toList) 0
      exact ⟨ones', hle, ((reads_sync hones).append (reads_unit (Nat.zero_le 4) u)).append hrest⟩
    · obtain ⟨ones', hle, hrest⟩ := ih (stuffBits_snd_le hones (toBits u).toList) (frameCnt + 1)
      exact ⟨ones', hle, (reads_unit hones u).append hrest⟩

theorem Decoder.reads_encodeRepetitions (hones : ones ≤ 4) (text : List CodeUnit) (n frameCnt : Nat) :
    ∃ ones' ≤ 4, Reads ones (encodeRepetitions text n frameCnt) ones' (List.replicate n text).flatten := by
  induction n generalizing frameCnt ones with
  | zero => exact ⟨ones, hones, .nil ones⟩
  | succ n ih =>
    obtain ⟨mid, hmid, hunits⟩ := reads_encodeUnits (Nat.zero_le 4) frameCnt text
    obtain ⟨ones', hle, hrest⟩ := ih hmid (encodeUnits frameCnt 0 text).2
    exact ⟨ones', hle, ((reads_burst hones).append hunits).append hrest⟩

end

/-! ### The start burst and the end marker (R173, R174) -/

/-- A decoder in WaitStart at a byte boundary, just after a sync word, that has counted `run` of them. -/
def Decoder.aligned (run : Nat) : Decoder :=
  { mode := .waitStart, resumeMode := .waitStart, shiftBuf := 0x7E, bitCnt := 0, onesCnt := 0,
    syncRun := BitVec.ofNat 3 run, lastRaw := false }

theorem Decoder.preRun_reset_sync : reset.preRun sync = (aligned 0, []) := rfl

theorem Decoder.preRun_aligned_sync {run : Nat} (h : run < 4) :
    (aligned run).preRun sync = (aligned (run + 1), []) := by
  interval_cases run <;> rfl

theorem Decoder.preRun_aligned_last_sync : (aligned 4).preRun sync = (decoding 0x7E 0 0 false, []) := rfl

/-- The first six sync words of a transmission, whether of the preamble or of the burst, lock a decoder (R173). -/
theorem Decoder.preRun_reset_syncWords : reset.preRun (syncWords (startSyncs + 1)) = (decoding 0x7E 0 0 false, []) := by
  simp [preRun_append, preRun_reset_sync, preRun_aligned_sync, preRun_aligned_last_sync]

/-- The decoder after an end marker (R174), but for `lastRaw`. -/
def Decoder.ended (raw : Bit) : Decoder :=
  { mode := .waitSync, resumeMode := .waitStart, shiftBuf := 0xDF, bitCnt := 0, onesCnt := 0, syncRun := 0,
    lastRaw := raw }

/-- The marker's first word is passed over; the last bit of its second part is the `1` in SkipTwo that resets (R174). -/
theorem Decoder.preRun_endMarker {ones : Nat} (hones : ones ≤ 4) (buf : BitVec 8) (raw : Bit) :
    ∃ raw', (decoding buf 0 ones raw).preRun endMarker = (ended raw', []) := by
  obtain ⟨raw₁, hfirst⟩ := preRun_sync hones buf raw
  obtain ⟨raw₂, hsecond⟩ := preRun_dropLast_sync (Nat.zero_le 4) ((sync.take 6).foldl shiftBit buf) raw₁
  have hlast8 : sync.take 6 ++ sync.take 6 = [false, true, true, true] ++ (toBits 0xDF).toList := by decide
  have hbuf : (sync.take 6).foldl shiftBit ((sync.take 6).foldl shiftBit buf) = 0xDF := by
    rw [← List.foldl_append, hlast8, List.foldl_append, foldl_shiftBit_toBits]
  refine ⟨true ^^ raw₂, ?_⟩
  rw [endMarker, preRun_append, preRun_append, hfirst, hsecond, hbuf]
  cases raw₂ <;> rfl

/-- A whole transmission from its first bit, at least one repetition of it (R177). -/
theorem Decoder.preRun_preSequence {r : Nat} (hr : r ≠ 0) (p : Nat) (text : List CodeUnit) :
    ∃ raw, reset.preRun (preSequence p r text) = (ended raw, (List.replicate r text).flatten) := by
  obtain ⟨n, rfl⟩ := Nat.exists_eq_succ_of_ne_zero hr
  obtain ⟨mid, hmid, hunits⟩ := reads_encodeUnits (Nat.zero_le 4) 0 text
  obtain ⟨ones, hones, hreps⟩ := reads_encodeRepetitions hmid text n (encodeUnits 0 0 text).2
  obtain ⟨buf, raw, hbody⟩ := (((reads_syncWords p).append hunits).append hreps) 0x7E false
  obtain ⟨raw', hend⟩ := preRun_endMarker hones buf raw
  have hswap : syncWords p ++ syncWords (startSyncs + 1) = syncWords (startSyncs + 1) ++ syncWords p := by
    simp [syncWords, ← List.flatten_append, List.replicate_append_replicate, Nat.add_comm]
  have hpre : preSequence p (n + 1) text = syncWords (startSyncs + 1) ++
      (syncWords p ++ (encodeUnits 0 0 text).1 ++ encodeRepetitions text n (encodeUnits 0 0 text).2) ++ endMarker := by
    simp only [preSequence, encodeRepetitions, ← List.append_assoc, hswap]
  refine ⟨raw', ?_⟩
  rw [hpre, preRun_append, preRun_append, preRun_reset_syncWords, hbody, hend]
  simp [List.replicate_succ]

/-- The registers of R174 and the text (R177), from the line bits. -/
theorem Decoder.rxRun_lineBits {r : Nat} (hr : r ≠ 0) (p : Nat) (text : List CodeUnit) :
    reset.rxRun (lineBits p r text) =
      (ended ((lineBits p r text).getLastD false), (List.replicate r text).flatten) := by
  obtain ⟨raw, (h : reset.rxRun (lineBits p r text) = _)⟩ := preRun_preSequence hr p text
  have hlast := reset.rxRun_lastRaw (lineBits p r text)
  rw [h] at hlast ⊢
  exact congrArg (fun b => (ended b, _)) hlast

end Sys2Proof.Machine

namespace Sys2Proof.Proofs
open Sys2Proof.Machine

/-- Settles O45, by the cases of the WaitStart arm; the common part leaves `syncRun`. -/
theorem waitStartCountsAlignedSyncWords : Obligations.WaitStartCountsAlignedSyncWords := by
  intro s raw d hmode hd
  have hrun : d.syncRun = s.dec.syncRun := by rw [hd]; rfl
  have hexec := execRxbit_of_no_byte (Decoder.rxStep_of_waitStart hmode hd)
  refine ⟨fun hoff => ?_, fun h8 hne => ?_, fun h8 hsync hlt => ?_, fun h8 hsync hle => ?_⟩
  · rw [hexec, Decoder.waitStartArm_of_inside_byte hoff]
  · rw [hexec, Decoder.waitStartArm_of_other_byte h8 hne]
  · rw [hexec, Decoder.waitStartArm_of_sync h8 hsync (hrun ▸ hlt), hrun]
  · rw [hexec, Decoder.waitStartArm_of_last_sync h8 hsync (hrun ▸ hle)]

/-- Settles O49: the bits are those of an `ENCODE` that completed, since a refused one appends none; one `RXBIT` each is a
run of the decoder over a whole transmission. -/
theorem decodingATransmissionReproducesTheText : Obligations.DecodingATransmissionReproducesTheText := by
  intro s t text bits hdec hlog htext hexec hbits hne
  have hnot_refused (f : RefusalFlag) (hrefused : exec .encode s = .next (s.refuse f)) : False := by
    rw [hrefused] at hexec
    cases hexec
    exact hne (by simpa using hbits)
  obtain ⟨_, hrefused⟩ | ⟨_, _, _, hfault⟩ | ⟨hrep, _, _, rfl, ⟨_, hdone⟩ | ⟨_, hrefused⟩⟩ := execEncode_cases s
  · exact (hnot_refused _ hrefused).elim
  · rw [hfault] at hexec
    cases hexec
  · rw [hdone, ← htext] at hexec
    cases hexec
    obtain rfl : lineBits s.params.preamble.toNat s.params.repeatCount.toNat text = bits := by simpa using hbits
    have hrep' : s.params.repeatCount.toNat ≠ 0 := fun h => hrep (BitVec.eq_of_toNat_eq h)
    have hrun := Decoder.rxRun_lineBits hrep' s.params.preamble.toNat text
    exact ⟨_, execAll_rxbits _ _, by simp [hdec, hlog, hrun], by simp [hdec, hrun, Decoder.ended]⟩
  · exact (hnot_refused _ hrefused).elim

/-- Settles O41: the SkipOne arm emits nothing and writes `mode` alone. -/
theorem skipOneConsumesOneBit : Obligations.SkipOneConsumesOneBit :=
  fun _ raw hmode => execRxbit_of_no_byte (Decoder.rxStep_of_skipOne hmode raw)

/-- Settles O42: the two branches of the SkipTwo arm. -/
theorem skipTwoRealignsOrResets : Obligations.SkipTwoRealignsOrResets := by
  intro s raw hmode
  have hexec := execRxbit_of_no_byte (Decoder.rxStep_of_skipTwo hmode raw)
  refine ⟨fun hrec => ?_, fun hrec => ?_⟩
  · rw [hexec, if_pos hrec]
    rfl
  · rw [hexec, if_neg (by simp [hrec])]

/-- Settles O44: the two branches of the WaitSync arm; the common part leaves `resumeMode`. -/
theorem waitSyncSearchesEveryBit : Obligations.WaitSyncSearchesEveryBit := by
  intro s raw d hmode hd
  have hexec := execRxbit_of_no_byte (Decoder.rxStep_of_waitSync hmode hd)
  have hresume : d.resumeMode = s.dec.resumeMode := by rw [hd]; rfl
  refine ⟨fun hsync => ?_, fun hne => ?_⟩
  · rw [hexec, Decoder.waitSyncArm_of_sync hsync, hresume]
    cases s.dec.resumeMode <;> rfl
  · rw [hexec, Decoder.waitSyncArm_of_ne_sync hne]

/-- Settles O46: the Decode arm writes the registers as its two tests say, and a completed byte goes to both lists. -/
theorem decodeEmitsBytesAndSkipsAfterFiveOnes : Obligations.DecodeEmitsBytesAndSkipsAfterFiveOnes := by
  intro s raw d hmode hd
  rw [execRxbit_eq, Decoder.rxStep_of_decode hmode hd, apply_ite Option.toList]
  rfl

/-- Settles O47: `RXRESET` has one case, which writes `Decoder.reset`, the decoder of the hardware reset. -/
theorem rxresetRestoresTheResetDecoder : Obligations.RxresetRestoresTheResetDecoder := by
  refine ⟨fun _ => decode_eq_rxreset, rfl, fun s => ⟨rfl, fun t h => ?_⟩⟩
  cases h
  exact ⟨rfl, rfl⟩

end Sys2Proof.Proofs

/-! PROOFS. WGEN (44_waveform.md): what LINEPUSH and SYNTH do in each of their cases (R192, R193), the samples of the signal
part and their real values (R194, R195), and the length of the gaps (R196). The lemmas come first, the theorems that settle
the obligations last. -/

namespace Sys2Proof.Machine

/-! ### The cases of `LINEPUSH` and `SYNTH` (R192, R193, R202) -/

section
variable {s : State}

theorem execLinepush_of_ne_full (h : s.cfg.lineDepth ≠ some s.line.length) (b : Bit) :
    exec (.linepush b) s = .next (s.pushLine [b]) := by
  obtain ⟨_, hexec⟩ | ⟨hfull, _⟩ := execLinepush_cases b s
  · exact hexec
  · exact absurd hfull h

theorem execLinepush_of_full (h : s.cfg.lineDepth = some s.line.length) (b : Bit) :
    exec (.linepush b) s = .next (s.refuse .lineovf) := by
  obtain ⟨hroom, _⟩ | ⟨_, hexec⟩ := execLinepush_cases b s
  · exact absurd h hroom
  · exact hexec

/-- The samples are those of the format: gap, signal part, gap. -/
theorem execSynth_of_pvalid (hp : s.status.pvalid = true) :
    exec .synth s = .next { s with
      line := []
      samp := s.samp ++ s.quantise (
        List.replicate (gapSamples s.profile.psrate.toNat s.params.gapms.toNat) Sample.gap
          ++ formatSignal s.profile.spb.toNat s.profile.ppb.toNat s.line
          ++ List.replicate (gapSamples s.profile.psrate.toNat s.params.gapms.toNat) Sample.gap) } := by
  obtain ⟨_, hexec⟩ | ⟨hnp, _⟩ := execSynth_cases s
  · rw [hexec, synthSamples_eq]
    rfl
  · simp [hp] at hnp

theorem execSynth_of_not_pvalid (hp : s.status.pvalid = false) : exec .synth s = .next (s.refuse .noprof) := by
  obtain ⟨hyes, _⟩ | ⟨_, hexec⟩ := execSynth_cases s
  · simp [hp] at hyes
  · exact hexec

end

/-! ### The signal part (R194, R195) -/

@[simp] theorem length_formatSignal (spb ppb : Nat) (bits : List Bit) :
    (formatSignal spb ppb bits).length = bits.length * spb := by
  simp [formatSignal]

/-- The sample at a place: its bit is the one at the place divided by `SPB`. -/
theorem getElem?_formatSignal {spb i : Nat} {bits : List Bit} {bit : Bit} (hspb : 1 ≤ spb)
    (hbit : bits[i / spb]? = some bit) (ppb : Nat) :
    (formatSignal spb ppb bits)[i]? = some (.carrier bit (ppb * i % spb) spb) := by
  obtain ⟨hlt, -⟩ := List.getElem?_eq_some_iff.1 hbit
  have hi : i < bits.length * spb := (Nat.div_lt_iff_lt_mul hspb).1 hlt
  simp [formatSignal, hi, List.getD, hbit]

/-- The place after the samples already on `SAMP` and the leading gap, of length `g`, is a place of the signal part. -/
theorem getElem?_append_gap_signal (old gap signal rest : List QSample) {g : Nat} (hg : gap.length = g) {i : Nat}
    (hi : i < signal.length) : (old ++ (gap ++ signal ++ rest))[old.length + g + i]? = signal[i]? := by
  subst hg
  rw [Nat.add_assoc, List.getElem?_append_right (Nat.le_add_right _ _), Nat.add_sub_cancel_left, List.append_assoc,
    List.getElem?_append_right (Nat.le_add_right _ _), Nat.add_sub_cancel_left, List.getElem?_append_left hi]

/-- Whole turns of the carrier, which the phase accumulator drops, do not change the sample. -/
theorem cos_phaseAcc {spb : Nat} (hspb : 1 ≤ spb) (ppb i : Nat) :
    Real.cos (2 * Real.pi * (ppb * i % spb : ℕ) / spb) = Real.cos (2 * Real.pi * ppb / spb * i) := by
  have hne : (spb : ℝ) ≠ 0 := Nat.cast_ne_zero.2 (Nat.one_le_iff_ne_zero.1 hspb)
  have hsplit : ((ppb * i % spb : ℕ) : ℝ) + spb * (ppb * i / spb : ℕ) = ppb * i := by
    exact_mod_cast Nat.mod_add_div (ppb * i) spb
  have hangle : 2 * Real.pi * ppb / spb * i =
      2 * Real.pi * (ppb * i % spb : ℕ) / spb + (ppb * i / spb : ℕ) * (2 * Real.pi) := by
    field_simp
    linear_combination -hsplit
  rw [hangle, Real.cos_add_nat_mul_two_pi]

/-- The exact real value of sample number `i` of the signal part. -/
theorem Sample.value_carrier {spb : Nat} (hspb : 1 ≤ spb) (sym : Bit) (ppb i : Nat) :
    (Sample.carrier sym (ppb * i % spb) spb).value =
      (if sym then 1 else -1) * Real.cos (2 * Real.pi * ppb / spb * i) := by
  rw [Sample.value, symbolValue, cos_phaseAcc hspb]

/-- With the default `Q`, what is on `SAMP` has magnitude at most 1. -/
theorem QSample.abs_value_le_one {e : QSample} (h : e.quantiser = .identity) : |e.value| ≤ 1 := by
  rw [QSample.value, h, Quantiser.identity_apply]
  exact e.exact.abs_value_le_one

/-! ### The gaps (R196) -/

/-- No gap is asked for. -/
@[simp] theorem gapSamples_zero (psrate : Nat) : gapSamples psrate 0 = 0 := by
  simp [gapSamples]

@[simp] theorem State.quantise_replicate (s : State) (n : Nat) (x : Sample) :
    s.quantise (List.replicate n x) = List.replicate n ⟨s.cfg.quantiser, x⟩ := by
  simp [State.quantise]

/-- The gap length against the exact quotient: rounded to nearest. -/
theorem abs_gapSamples_sub_le (psrate gapms : Nat) :
    |(gapSamples psrate gapms : ℚ) - (psrate : ℚ) * gapms / 1000| ≤ 1 / 2 := by
  obtain ⟨hle, hge, -⟩ := gapSamples_spec psrate gapms
  have hle' : 1000 * (gapSamples psrate gapms : ℚ) ≤ psrate * gapms + 500 := by exact_mod_cast hle
  have hge' : (psrate : ℚ) * gapms ≤ 1000 * gapSamples psrate gapms + 500 := by exact_mod_cast hge
  rw [abs_le]
  constructor <;> linarith

/-- A gap length one half away from the exact quotient comes from a remainder of 500 thousandths, a tie: it is even. -/
theorem even_gapSamples_of_tie {psrate gapms : Nat}
    (h : |(gapSamples psrate gapms : ℚ) - (psrate : ℚ) * gapms / 1000| = 1 / 2) : Even (gapSamples psrate gapms) := by
  obtain ⟨-, -, heven⟩ := gapSamples_spec psrate gapms
  have htie : psrate * gapms % 1000 = 500 := by
    obtain h | h := (abs_eq (by norm_num)).1 h
    · have hup : 1000 * gapSamples psrate gapms = psrate * gapms + 500 := by
        have : 1000 * (gapSamples psrate gapms : ℚ) = psrate * gapms + 500 := by linarith
        exact_mod_cast this
      omega
    · have hdown : 1000 * gapSamples psrate gapms + 500 = psrate * gapms := by
        have : 1000 * (gapSamples psrate gapms : ℚ) + 500 = psrate * gapms := by linarith
        exact_mod_cast this
      omega
  exact Nat.even_iff.2 (heven htie)

end Sys2Proof.Machine

namespace Sys2Proof.Proofs
open Sys2Proof.Machine

/-- Settles O35: the two cases of `SYNTH`; the gap length of R193's pseudocode is `gapSamples`. -/
theorem synthDrainsLineIntoSamp : Obligations.SynthDrainsLineIntoSamp := by
  refine ⟨fun _ => decode_eq_synth, rfl, ?_⟩
  rintro s _ _ _ rfl rfl rfl
  exact ⟨execSynth_of_pvalid, execSynth_of_not_pvalid⟩

/-- Settles O36: the place on `SAMP` is a place of the format's signal part, and the phase accumulator drops whole turns
only. -/
theorem synthSamplesAreTheModulatedCarrier : Obligations.SynthSamplesAreTheModulatedCarrier := by
  rintro s spb ppb g hp rfl rfl rfl hspb
  refine ⟨_, execSynth_of_pvalid hp, ?_⟩
  rintro _ i bit hbit rfl
  have hsample := getElem?_formatSignal hspb hbit s.profile.ppb.toNat
  obtain ⟨hi, -⟩ := List.getElem?_eq_some_iff.1 hsample
  have hvalue := Sample.value_carrier hspb bit s.profile.ppb.toNat i
  refine ⟨_, _, ?_, rfl, rfl, hvalue, ?_⟩
  · rw [State.quantise_append, State.quantise_append, getElem?_append_gap_signal _ _ _ _ (by simp) (by simpa using hi),
      State.getElem?_quantise, hsample]
    rfl
  · rw [QSample.value_mk, hvalue]

/-- Settles O37: both gaps are `gapSamples` long, and hold `Q` of the gap sample, whose value is 0. -/
theorem gapLengthIsRoundedHalfToEven : Obligations.GapLengthIsRoundedHalfToEven := by
  rintro s _ hp rfl
  exact ⟨_, _, s.quantise (formatSignal s.profile.spb.toNat s.profile.ppb.toNat s.line), _, execSynth_of_pvalid hp,
    by simp [State.quantise_append], by simp, abs_gapSamples_sub_le _ _, even_gapSamples_of_tie, rfl, rfl⟩

/-- Settles O33: `LINECLR` has one case, which writes `LINE` alone. -/
theorem lineclrEmptiesLine : Obligations.LineclrEmptiesLine :=
  ⟨fun _ => decode_eq_lineclr, rfl, fun _ => rfl⟩

/-- Settles O34: the two cases of `LINEPUSH`, with the bit read from the word itself. -/
theorem linepushAppendsTheBit : Obligations.LinepushAppendsTheBit := by
  refine ⟨fun w hop => ?_, fun b => ?_, fun s b => ⟨fun hroom => execLinepush_of_ne_full hroom b,
    fun hfull => execLinepush_of_full hfull b⟩⟩
  · rw [decode_eq_linepush hop, dataBit_cmdData]
  · cases b <;> rfl

/-- Settles O38: the lengths of the three parts add up; what is new on `SAMP` went through the machine's `Q`. -/
theorem synthOutputLength : Obligations.SynthOutputLength := by
  intro s hp
  refine ⟨_, execSynth_of_pvalid hp, ?_, fun hspb hline hgap => ⟨?_, fun e he => ?_⟩⟩
  · simp only [List.length_append, State.length_quantise, List.length_replicate, length_formatSignal]
    omega
  · simp [hspb, hline, hgap]
  · rw [List.drop_left] at he
    obtain ⟨hq, -⟩ := State.mem_quantise he
    exact ⟨e.exact.abs_value_le_one, fun hid => QSample.abs_value_le_one (hq.trans hid)⟩

end Sys2Proof.Proofs

/-! PROOFS. The host commands (45_host.md): NOP, SETP, GETP and the reserved opcodes (R210 to R214), with the view LINELEN
(10_state.md R34). The lemmas come first, the theorems that settle the obligations last. -/

namespace Sys2Proof

/-- The writable selectors are those numbered 0 to 5 (R21, R98). -/
theorem Sel.writable_iff_selCode_lt (sel : Sel) : sel.writable = true ↔ (selCode sel).toNat < 6 := by
  cases sel <;> decide

end Sys2Proof

namespace Sys2Proof.Machine

/-! ### The cases of `SETP` and `GETP` (R211 to R213) -/

section
variable {s t : State} {sel : Sel} {v : Word}

theorem execSetp_of_writeReg (h : s.writeReg sel v = some t) : exec (.setp sel v) s = .next t := by
  simp only [exec, execSetp, h]

theorem execSetp_of_not_writable (h : sel.writable = false) : exec (.setp sel v) s = .next (s.refuse .illcmd) := by
  obtain ⟨hw, _⟩ | ⟨_, hexec⟩ := execSetp_cases sel v s
  · simp [h] at hw
  · exact hexec

theorem execGetp_of_readReg (h : s.readReg sel = some v) : exec (.getp sel) s = .next (s.emitRsp v) := by
  simp only [exec, execGetp, h]

theorem execGetp_of_reserved (h : sel.reserved = true) :
    exec (.getp sel) s = .next ((s.refuse .illcmd).emitRsp 0) := by
  obtain ⟨_, _, hr, _⟩ | ⟨_, hexec⟩ := execGetp_cases sel s
  · simp [h] at hr
  · exact hexec

end

/-! ### The view `LINELEN` (R34) -/

/-- `LINELEN` is the length of `LINE` as long as that fits in a word, and saturates above. -/
theorem State.lineLen_eq_ite (s : State) :
    s.lineLen = if s.line.length ≤ 2 ^ 32 - 1 then BitVec.ofNat 32 s.line.length else 0xFFFFFFFF := by
  unfold State.lineLen
  split
  next hfits => rw [Nat.min_eq_left hfits]
  next hlong =>
    rw [Nat.min_eq_right (Nat.le_of_not_le hlong)]
    rfl

end Sys2Proof.Machine

namespace Sys2Proof.Proofs
open Sys2Proof.Machine

/-- Settles O14: `NOP` has one case, which answers the state itself. -/
theorem nopChangesNothing : Obligations.NopChangesNothing :=
  ⟨fun _ => decode_eq_nop, rfl, fun _ => rfl⟩

/-- Settles O15: a selector below 6 has a register that `writeReg` writes, any other is refused. -/
theorem setpWritesTheParameterRegister : Obligations.SetpWritesTheParameterRegister := by
  obtain ⟨_, hencode, _⟩ := canonicalWordsAreThoseOfTheManual
  refine ⟨fun _ => decode_eq_setp, hencode, fun s v => ⟨execSetp_of_writeReg rfl, execSetp_of_writeReg rfl,
    execSetp_of_writeReg rfl, execSetp_of_writeReg rfl, execSetp_of_writeReg rfl, execSetp_of_writeReg rfl,
    fun sel hsel => execSetp_of_not_writable ?_⟩⟩
  rw [← Bool.not_eq_true, Sel.writable_iff_selCode_lt]
  exact Nat.not_lt.2 hsel

/-- Settles O16: a selector with a value in `readReg` answers it, and the three reserved ones answer 0 with `ILLCMD`. -/
theorem getpAppendsTheSelectedWord : Obligations.GetpAppendsTheSelectedWord := by
  obtain ⟨_, _, hencode, _⟩ := canonicalWordsAreThoseOfTheManual
  refine ⟨fun _ => decode_eq_getp, hencode, fun s => ⟨execGetp_of_readReg rfl, execGetp_of_readReg rfl,
    execGetp_of_readReg rfl, execGetp_of_readReg rfl, execGetp_of_readReg rfl, execGetp_of_readReg rfl,
    execGetp_of_readReg rfl, execGetp_of_readReg rfl, execGetp_of_readReg rfl, execGetp_of_readReg rfl,
    execGetp_of_readReg rfl, ?_, execGetp_of_readReg rfl, ?_⟩⟩
  · rw [← State.lineLen_eq_ite]
    exact execGetp_of_readReg rfl
  · rintro sel (rfl | rfl | rfl) <;> exact execGetp_of_reserved rfl

/-- Settles O19: the four reserved rows share one meaning, the refusal with `ILLCMD`. -/
theorem reservedOpcodesOnlySetIllcmd : Obligations.ReservedOpcodesOnlySetIllcmd :=
  ⟨fun _ => ⟨decode_eq_reservedC, decode_eq_reservedD, decode_eq_reservedE, decode_eq_reservedF⟩,
    fun _ => ⟨rfl, rfl, rfl, rfl⟩⟩

end Sys2Proof.Proofs

/-! PROOFS. Reset and hazards (70_reset_and_hazards.md): the decoder and the rest of the machine share no state (R183, R262,
10_state.md R35). The lemmas come first, the theorems that settle the obligations last. -/

namespace Sys2Proof.Machine

/-! ### The receive side of the state (R35, R45) -/

/-- What the decoder commands work on: the decoder registers, `rxLog` and the trace `RXOUT`. -/
structure RxSide where
  dec : Decoder
  rxLog : List CodeUnit
  rxOut : List CodeUnit

/-- The receive side of a state. -/
def State.rxSide (s : State) : RxSide := ⟨s.dec, s.rxLog, s.rxOut⟩

/-- A state with another receive side. -/
def State.withRxSide (s : State) (r : RxSide) : State := { s with dec := r.dec, rxLog := r.rxLog, rxOut := r.rxOut }

/-- A decoder command always completes; it reads and writes the receive side alone. -/
theorem exec_decoderCommand {d : Instr} (hd : decoderCommand d = true) :
    ∃ f : RxSide → RxSide, ∀ s, exec d s = .next (s.withRxSide (f s.rxSide)) := by
  cases d with
  | rxbit raw =>
    exact ⟨fun r => ⟨(r.dec.rxStep raw).1, r.rxLog ++ (r.dec.rxStep raw).2.toList,
      r.rxOut ++ (r.dec.rxStep raw).2.toList⟩, execRxbit_eq raw⟩
  | rxreset => exact ⟨fun r => ⟨Decoder.reset, [], r.rxOut⟩, fun _ => rfl⟩
  | _ => cases hd

/-- Any other command leaves the receive side. -/
theorem exec_rxSide_of_not_decoderCommand {i : Instr} {s t : State} (hi : decoderCommand i = false)
    (h : exec i s = .next t) : t.rxSide = s.rxSide := by
  cases exec_transition h with
  | rxbit | rxreset => cases hi
  | setp _ _ _ _ _ ht => rw [(State.writeReg_eq_some ht).1]; rfl
  | _ => rfl

/-! ### What the other commands read (R183, R262) -/

/-- The converse of `exec_transition`: every transition is taken. -/
theorem Transition.exec_eq {i : Instr} {s t : State} (h : Transition i s t) : exec i s = .next t := by
  cases h with
  | setp _ _ _ _ _ ht => exact execSetp_of_writeReg ht
  | setpRefused _ _ _ hw => exact execSetp_of_not_writable hw
  | getp _ _ _ _ hv => exact execGetp_of_readReg hv
  | getpRefused _ _ hr => exact execGetp_of_reserved hr
  | derive _ _ _ h | deriveFailed _ h => simp only [exec, execDerive, h]
  | txpush _ u h => exact execTxpush_of_lt h u
  | txpushRefused _ u h => exact execTxpush_of_full h u
  | encode _ text hr hl ht hroom =>
    subst ht
    obtain ⟨hbad, _⟩ | ⟨_, hout, _⟩ | ⟨_, _, _, rfl, ⟨_, hexec⟩ | ⟨hno, _⟩⟩ := execEncode_cases s
    · exact absurd hbad hr
    · omega
    · exact hexec
    · simp [hroom] at hno
  | encodeBadArg _ hr => exact execEncode_of_repeat_zero hr
  | encodeNoRoom _ text hr hl ht hroom =>
    subst ht
    obtain ⟨hbad, _⟩ | ⟨_, hout, _⟩ | ⟨_, _, _, rfl, ⟨hyes, _⟩ | ⟨_, hexec⟩⟩ := execEncode_cases s
    · exact absurd hbad hr
    · omega
    · simp [hroom] at hyes
    · exact hexec
  | linepush _ b h => exact execLinepush_of_ne_full h b
  | linepushRefused _ b h => exact execLinepush_of_full h b
  | synth _ h => exact if_pos h
  | synthRefused _ h => exact execSynth_of_not_pvalid h
  | rxbit _ raw => exact execRxbit_eq raw s
  | nop | txclr | lineclr | rxreset | reservedC | reservedD | reservedE | reservedF => rfl

/-- `DECSTATE` is the one register that shows the receive side (R43). -/
theorem State.readReg_withRxSide {sel : Sel} (hsel : sel ≠ .decstate) (s : State) (r : RxSide) :
    (s.withRxSide r).readReg sel = s.readReg sel := by
  cases sel with
  | decstate => exact absurd rfl hsel
  | _ => rfl

theorem State.writeReg_withRxSide (s : State) (r : RxSide) (sel : Sel) (v : Word) :
    (s.withRxSide r).writeReg sel v = (s.writeReg sel v).map (·.withRxSide r) := by
  cases sel <;> rfl

/-- A command that is not the decoder's, `GETP DECSTATE` apart, makes the same transition whatever the receive side is. -/
theorem Transition.withRxSide {i : Instr} {s t : State} (hi : decoderCommand i = false) (hne : i ≠ .getp .decstate)
    (h : Transition i s t) (r : RxSide) : Transition i (s.withRxSide r) (t.withRxSide r) := by
  cases h with
  | nop => exact .nop _
  | setp _ _ sel v hw ht => exact .setp _ _ _ _ hw (by rw [State.writeReg_withRxSide, ht]; rfl)
  | setpRefused _ sel v hw => exact .setpRefused _ _ _ hw
  | getp _ sel v hr hv =>
    have hsel : sel ≠ .decstate := fun heq => hne (by rw [heq])
    exact .getp _ _ _ hr ((State.readReg_withRxSide hsel s r).trans hv)
  | getpRefused _ sel hr => exact .getpRefused _ _ hr
  | derive _ spb ppb h => exact .derive _ _ _ h
  | deriveFailed _ h => exact .deriveFailed _ h
  | txclr => exact .txclr _
  | txpush _ u h => exact .txpush _ _ h
  | txpushRefused _ u h => exact .txpushRefused _ _ h
  | encode _ text hr hl ht hroom => exact .encode _ _ hr hl ht hroom
  | encodeBadArg _ hr => exact .encodeBadArg _ hr
  | encodeNoRoom _ text hr hl ht hroom => exact .encodeNoRoom _ _ hr hl ht hroom
  | lineclr => exact .lineclr _
  | linepush _ b h => exact .linepush _ _ h
  | linepushRefused _ b h => exact .linepushRefused _ _ h
  | synth _ h => exact .synth _ h
  | synthRefused _ h => exact .synthRefused _ h
  | rxbit | rxreset => cases hi
  | reservedC => exact .reservedC _
  | reservedD => exact .reservedD _
  | reservedE => exact .reservedE _
  | reservedF => exact .reservedF _

theorem exec_withRxSide {i : Instr} {s t : State} (hi : decoderCommand i = false) (hne : i ≠ .getp .decstate)
    (h : exec i s = .next t) (r : RxSide) : exec i (s.withRxSide r) = .next (t.withRxSide r) :=
  ((exec_transition h).withRxSide hi hne r).exec_eq

end Sys2Proof.Machine

namespace Sys2Proof.Proofs
open Sys2Proof.Machine

/-- Settles O53: the two directions are the frames of the two kinds of command on the receive side. -/
theorem decoderIsWrittenOnlyByItsCommands : Obligations.DecoderIsWrittenOnlyByItsCommands := by
  refine fun i s t h => ⟨fun hi => ?_, fun hi => ?_⟩
  · simpa [State.rxSide] using exec_rxSide_of_not_decoderCommand hi h
  · obtain ⟨f, hf⟩ := exec_decoderCommand hi
    cases (hf s).symm.trans h
    rfl

/-- Settles O54: `i` hands the receive side on to the decoder command `d` as it found it, and `d` given first only puts
another receive side under `i`, which does not look at it. -/
theorem decoderCommandsCommuteWithTheOthers : Obligations.DecoderCommandsCommuteWithTheOthers := by
  intro d i s t u hd hi hne ht hu
  obtain ⟨f, hf⟩ := exec_decoderCommand hd
  have hrx : t.rxSide = s.rxSide := exec_rxSide_of_not_decoderCommand hi ht
  have hu' : t.withRxSide (f s.rxSide) = u := by
    rw [hf, hrx] at hu
    injection hu
  exact ⟨_, hf s, hu' ▸ exec_withRxSide hi hne ht _⟩

end Sys2Proof.Proofs

/-! PROOFS. Decoding undoes encoding (30_encoding.md R93 to R101), and words written out from the manual. -/

namespace Sys2Proof.Proofs
open Sys2Proof.Machine

/-- Settles O1: an operation that takes no operand is decided by its `op`; an operand is read back from its field. -/
theorem decodeOfEncodeIsIdentity : Obligations.DecodeOfEncodeIsIdentity := by
  intro i
  cases i with
  | nop => exact decode_eq_nop (cmdOp_mkCmd _ _ _)
  | setp sel data => rw [encode, decode_eq_setp (cmdOp_mkCmd _ _ _), cmdSel_mkCmd, selOfCode_selCode, cmdData_mkCmd]
  | getp sel => rw [encode, decode_eq_getp (cmdOp_mkCmd _ _ _), cmdSel_mkCmd, selOfCode_selCode]
  | derive => exact decode_eq_derive (cmdOp_mkCmd _ _ _)
  | txclr => exact decode_eq_txclr (cmdOp_mkCmd _ _ _)
  | txpush u => rw [encode, decode_eq_txpush (cmdOp_mkCmd _ _ _), cmdData_mkCmd, dataUnit_setWidth]
  | encode => exact decode_eq_encode (cmdOp_mkCmd _ _ _)
  | lineclr => exact decode_eq_lineclr (cmdOp_mkCmd _ _ _)
  | linepush b => rw [encode, decode_eq_linepush (cmdOp_mkCmd _ _ _), cmdData_mkCmd, dataBit_setWidth]
  | synth => exact decode_eq_synth (cmdOp_mkCmd _ _ _)
  | rxbit b => rw [encode, decode_eq_rxbit (cmdOp_mkCmd _ _ _), cmdData_mkCmd, dataBit_setWidth]
  | rxreset => exact decode_eq_rxreset (cmdOp_mkCmd _ _ _)
  | reservedC => exact decode_eq_reservedC (cmdOp_mkCmd _ _ _)
  | reservedD => exact decode_eq_reservedD (cmdOp_mkCmd _ _ _)
  | reservedE => exact decode_eq_reservedE (cmdOp_mkCmd _ _ _)
  | reservedF => exact decode_eq_reservedF (cmdOp_mkCmd _ _ _)

/-- Settles O7: each word's `op` selects the equation, and the fields are read off the numeral. -/
theorem writtenWordsDecodeToTheirInstructions : Obligations.WrittenWordsDecodeToTheirInstructions :=
  ⟨decode_eq_setp rfl, decode_eq_getp rfl, decode_eq_derive rfl, decode_eq_txpush rfl, decode_eq_linepush rfl,
    decode_eq_rxbit rfl, decode_eq_reservedC rfl⟩

end Sys2Proof.Proofs

/-! PROOFS. The register file: the flags packed in `STATUS` (10_state.md R23), and a parameter read back (R22). -/

namespace Sys2Proof.Machine

/-- A flag appended at bit 0 moves the bits above it one place up. -/
theorem toNat_append_ofBool {n : Nat} (x : BitVec n) (b : Bool) :
    (x ++ BitVec.ofBool b).toNat = 2 * x.toNat + b.toNat := by
  rw [BitVec.toNat_append, ← Nat.shiftLeft_add_eq_or_of_lt (BitVec.isLt _), Nat.shiftLeft_eq, BitVec.toNat_ofBool,
    pow_one, Nat.mul_comm]

theorem State.rsp_of_writeReg {s t : State} {sel : Sel} {v : Word} (h : s.writeReg sel v = some t) : t.rsp = s.rsp := by
  rw [(State.writeReg_eq_some h).1]

end Sys2Proof.Machine

namespace Sys2Proof.Proofs
open Sys2Proof.Machine

/-- Settles O18: the seven flags are appended one by one, each below the ones before. -/
theorem statusPacksTheFlags : Obligations.StatusPacksTheFlags := by
  intro st
  have hpack : st.pack.toNat = 2 * (2 * (2 * (2 * (2 * (2 * (2 * 0 + st.lineovf.toNat) + st.illcmd.toNat)
      + st.noprof.toNat) + st.badarg.toNat) + st.txovf.toNat) + st.cfgerr.toNat) + st.pvalid.toNat := by
    iterate 7 refine (toNat_append_ofBool _ _).trans (congrArg (2 * · + _) ?_)
    rfl
  omega

/-- Settles O20: the registers after a parameter write are those of `State.readReg_writeReg`, and `SETP` emits
nothing. -/
theorem writtenParameterIsReadBack : Obligations.WrittenParameterIsReadBack := by
  intro s sel sel' v hw
  obtain ⟨_, t, ht, hexec⟩ | ⟨hnot, _⟩ := execSetp_cases sel v s
  · have hrsp := State.rsp_of_writeReg ht
    have hread := State.readReg_writeReg ht
    refine ⟨t, hexec, ?_, fun hne u hu => ?_⟩
    · rw [execGetp_of_readReg ((hread sel).trans (if_pos rfl)), State.emitRsp, hrsp]
    · obtain ⟨w, hv, _, he⟩ | ⟨hr, he⟩ := execGetp_cases sel' s <;> cases he.symm.trans hu
      · exact ⟨_, execGetp_of_readReg ((hread sel').trans ((if_neg hne).trans hv)), by simp [hrsp]⟩
      · exact ⟨_, execGetp_of_reserved hr, by simp [hrsp]⟩
  · simp [hw] at hnot

end Sys2Proof.Proofs

/-! PROOFS. The step and the command stream (00_scope.md R10, 20_memory.md R71): a step runs the decoded word, and an
instruction neither reads nor writes what is pending in `CMD`. -/

namespace Sys2Proof.Machine

/-! ### `CMD` during an instruction -/

/-- A state with other command words pending. -/
def State.withCmd (s : State) (c : List CmdWord) : State := { s with cmd := c }

theorem State.writeReg_withCmd (s : State) (c : List CmdWord) (sel : Sel) (v : Word) :
    (s.withCmd c).writeReg sel v = (s.writeReg sel v).map (·.withCmd c) := by
  cases sel <;> rfl

/-- The pending words are in no register. -/
theorem State.readReg_withCmd (s : State) (c : List CmdWord) (sel : Sel) :
    (s.withCmd c).readReg sel = s.readReg sel := by
  cases sel <;> rfl

/-- An instruction makes the same transition whatever is pending. -/
theorem Transition.withCmd {i : Instr} {s t : State} (h : Transition i s t) (c : List CmdWord) :
    Transition i (s.withCmd c) (t.withCmd c) := by
  cases h with
  | nop => exact .nop _
  | setp _ _ _ _ hw ht => exact .setp _ _ _ _ hw (by rw [State.writeReg_withCmd, ht]; rfl)
  | setpRefused _ _ _ hw => exact .setpRefused _ _ _ hw
  | getp _ sel _ hr hv => exact .getp _ _ _ hr ((s.readReg_withCmd c sel).trans hv)
  | getpRefused _ _ hr => exact .getpRefused _ _ hr
  | derive _ _ _ h => exact .derive _ _ _ h
  | deriveFailed _ h => exact .deriveFailed _ h
  | txclr => exact .txclr _
  | txpush _ _ h => exact .txpush _ _ h
  | txpushRefused _ _ h => exact .txpushRefused _ _ h
  | encode _ _ hr hl ht hroom => exact .encode _ _ hr hl ht hroom
  | encodeBadArg _ hr => exact .encodeBadArg _ hr
  | encodeNoRoom _ _ hr hl ht hroom => exact .encodeNoRoom _ _ hr hl ht hroom
  | lineclr => exact .lineclr _
  | linepush _ _ h => exact .linepush _ _ h
  | linepushRefused _ _ h => exact .linepushRefused _ _ h
  | synth _ h => exact .synth _ h
  | synthRefused _ h => exact .synthRefused _ h
  | rxbit _ raw => exact .rxbit _ raw
  | rxreset => exact .rxreset _
  | reservedC => exact .reservedC _
  | reservedD => exact .reservedD _
  | reservedE => exact .reservedE _
  | reservedF => exact .reservedF _

theorem exec_withCmd {i : Instr} {s t : State} (h : exec i s = .next t) (c : List CmdWord) :
    exec i (s.withCmd c) = .next (t.withCmd c) :=
  ((exec_transition h).withCmd c).exec_eq

/-- No instruction writes the OPEN parameters or the pending words (R8, R10). -/
theorem exec_cfg_cmd {i : Instr} {s t : State} (h : exec i s = .next t) : t.cfg = s.cfg ∧ t.cmd = s.cmd := by
  cases exec_transition h with
  | setp _ _ _ _ _ ht => rw [(State.writeReg_eq_some ht).1]; exact ⟨rfl, rfl⟩
  | _ => exact ⟨rfl, rfl⟩

/-! ### The step -/

theorem step_of_cmd_cons {s : State} {w : CmdWord} {rest : List CmdWord} (h : s.cmd = w :: rest) :
    step s = exec (decode w) (s.withCmd rest) := by
  simp only [step, h, State.withCmd]

theorem step_of_cmd_nil {s : State} (h : s.cmd = []) : step s = .next s := by
  simp only [step, h]

end Sys2Proof.Machine

namespace Sys2Proof.Proofs
open Sys2Proof.Machine

/-- Settles O9: the instruction leaves `CMD` as the step hands it over, without the head, and runs alike with the new
word at its end. -/
theorem commandsAreTakenInStreamOrder : Obligations.CommandsAreTakenInStreamOrder := by
  intro s t w rest hcmd hstep
  rw [step_of_cmd_cons hcmd] at hstep
  obtain ⟨-, (hrest : t.cmd = rest)⟩ := exec_cfg_cmd hstep
  refine ⟨hrest, fun w' => ?_⟩
  have hgive : (hostGive w' s).cmd = w :: (rest ++ [w']) := by simp [hostGive, hcmd]
  have hgive_t : hostGive w' t = t.withCmd (rest ++ [w']) := by rw [hostGive, hrest, State.withCmd]
  rw [step_of_cmd_cons hgive, hgive_t]
  exact exec_withCmd hstep (rest ++ [w'])

/-- Settles O8, by the two cases of `CMD`. -/
theorem stepRunsTheDecodedInstruction : Obligations.StepRunsTheDecodedInstruction := by
  refine ⟨fun s w rest i hcmd hi => ?_, fun s hcmd => step_of_cmd_nil hcmd⟩
  rw [step_of_cmd_cons hcmd, hi]
  rfl

end Sys2Proof.Proofs

/-! PROOFS. What an instruction can do to the whole state: who writes each piece (10_state.md R21 to R47), what sets the
refusal flags (60_exceptions.md R226), the traces, and when the model stops (R231). The lemmas come first, the theorems
that settle the obligations last. -/

namespace Sys2Proof.Machine

section
variable {i : Instr} {s t : State}

/-! ### Who writes each piece of state -/

/-- The parameter registers are written by `SETP` (R22). -/
theorem exec_params (hi : ∀ sel v, i ≠ .setp sel v) (h : exec i s = .next t) : t.params = s.params := by
  cases exec_transition h with
  | setp _ _ sel v => exact absurd rfl (hi sel v)
  | _ => rfl

/-- The text is written by `TXPUSH`, its length also by `TXCLR` (R30). -/
theorem exec_text (hi : ∀ u, i ≠ .txpush u) (h : exec i s = .next t) :
    t.txbuf = s.txbuf ∧ (i ≠ .txclr → t.txlen = s.txlen) := by
  cases exec_transition h with
  | txpush _ u => exact absurd rfl (hi u)
  | txclr => exact ⟨rfl, fun hne => absurd rfl hne⟩
  | setp _ _ _ _ _ ht => rw [(State.writeReg_eq_some ht).1]; exact ⟨rfl, fun _ => rfl⟩
  | _ => exact ⟨rfl, fun _ => rfl⟩

/-- Line bits come from `ENCODE` and `LINEPUSH`; `SYNTH` and `LINECLR` empty `LINE` (R33, R46). -/
theorem exec_line (hpush : ∀ b, i ≠ .linepush b) (henc : i ≠ .encode) (h : exec i s = .next t) :
    t.lineOut = s.lineOut ∧ (i ≠ .synth → i ≠ .lineclr → t.line = s.line) := by
  cases exec_transition h with
  | linepush _ b => exact absurd rfl (hpush b)
  | encode => exact absurd rfl henc
  | synth => exact ⟨rfl, fun hne => absurd rfl hne⟩
  | lineclr => exact ⟨rfl, fun _ hne => absurd rfl hne⟩
  | setp _ _ _ _ _ ht => rw [(State.writeReg_eq_some ht).1]; exact ⟨rfl, fun _ _ => rfl⟩
  | _ => exact ⟨rfl, fun _ _ => rfl⟩

/-- `RSP` is written by `GETP` (R47). -/
theorem exec_rsp (hi : ∀ sel, i ≠ .getp sel) (h : exec i s = .next t) : t.rsp = s.rsp := by
  cases exec_transition h with
  | getp _ sel | getpRefused _ sel => exact absurd rfl (hi sel)
  | setp _ _ _ _ _ ht => rw [(State.writeReg_eq_some ht).1]
  | _ => rfl

/-- `SAMP` is written by `SYNTH` (R44). -/
theorem exec_samp (hi : i ≠ .synth) (h : exec i s = .next t) : t.samp = s.samp := by
  obtain ⟨hsynth, -⟩ | ⟨-, hsamp⟩ := exec_samp_cases h
  · exact absurd hsynth hi
  · exact hsamp

/-- The bytes received are written by `RXBIT`; the decoder registers and `rxLog` also by `RXRESET` (R35, R45). -/
theorem exec_rx (hi : ∀ raw, i ≠ .rxbit raw) (h : exec i s = .next t) :
    t.rxOut = s.rxOut ∧ (i ≠ .rxreset → t.dec = s.dec ∧ t.rxLog = s.rxLog) := by
  cases exec_transition h with
  | rxbit _ raw => exact absurd rfl (hi raw)
  | rxreset => exact ⟨rfl, fun hne => absurd rfl hne⟩
  | setp _ _ _ _ _ ht => rw [(State.writeReg_eq_some ht).1]; exact ⟨rfl, fun _ => ⟨rfl, rfl⟩⟩
  | _ => exact ⟨rfl, fun _ => ⟨rfl, rfl⟩⟩

/-! ### What sets the refusal flags (R226) -/

theorem State.lineRoom_eq_false_iff (s : State) (n : Nat) :
    s.lineRoom n = false ↔ ∃ depth, s.cfg.lineDepth = some depth ∧ depth < s.line.length + n := by
  rw [← Bool.not_eq_true, s.lineRoom_iff]
  push Not
  rfl

/-- The cause of a refusal flag: the instruction and the state before it that set the flag (R226). -/
def RefusalFlag.Cause (i : Instr) (s : State) : RefusalFlag → Prop
  | .txovf => (∃ u, i = .txpush u) ∧ s.txlen.toNat = s.cfg.txbufSize
  | .badarg => i = .encode ∧ s.params.repeatCount = 0
  | .noprof => i = .synth ∧ s.status.pvalid = false
  | .illcmd => i.wellFormed = false
  | .lineovf =>
    ((∃ b, i = .linepush b) ∧ s.cfg.lineDepth = some s.line.length) ∨
    (i = .encode ∧ s.params.repeatCount ≠ 0 ∧ ∃ depth, s.cfg.lineDepth = some depth ∧
      depth < s.line.length + (formatPre s.params.preamble.toNat s.params.repeatCount.toNat
        ((List.range s.txlen.toNat).map (Memory.read s.txbuf))).length)

/-- An instruction either meets the cause of one flag and sets it, or meets no cause and leaves all five flags. -/
theorem exec_refusal_cases (h : exec i s = .next t) :
    (∃ f, t.status = s.status.set f ∧ ∀ g : RefusalFlag, g.Cause i s ↔ f = g) ∨
    (∀ g : RefusalFlag, t.status.get g = s.status.get g ∧ ¬ g.Cause i s) := by
  cases exec_transition h with
  | setp _ _ _ _ hw ht =>
    rw [(State.writeReg_eq_some ht).1]
    exact .inr fun g => ⟨rfl, by cases g <;> simp [RefusalFlag.Cause, Instr.wellFormed, hw]⟩
  | setpRefused _ _ _ hw =>
    exact .inl ⟨.illcmd, rfl, fun g => by cases g <;> simp [RefusalFlag.Cause, Instr.wellFormed, hw]⟩
  | getp _ _ _ hr =>
    exact .inr fun g => ⟨rfl, by cases g <;> simp [RefusalFlag.Cause, Instr.wellFormed, hr]⟩
  | getpRefused _ _ hr =>
    exact .inl ⟨.illcmd, rfl, fun g => by cases g <;> simp [RefusalFlag.Cause, Instr.wellFormed, hr]⟩
  | txpush _ _ hlt =>
    exact .inr fun g => ⟨rfl, by cases g <;> simp [RefusalFlag.Cause, Instr.wellFormed, hlt.ne]⟩
  | txpushRefused _ _ hfull =>
    exact .inl ⟨.txovf, rfl, fun g => by cases g <;> simp [RefusalFlag.Cause, Instr.wellFormed, hfull]⟩
  | encode _ _ hr _ ht hroom =>
    have hrep : ¬ s.params.repeatCount = 0#32 := hr
    rw [preSequence_eq_formatPre, ht, ← Bool.not_eq_false, s.lineRoom_eq_false_iff] at hroom
    exact .inr fun g => ⟨rfl, by cases g <;> simp [RefusalFlag.Cause, Instr.wellFormed, hrep, hroom]⟩
  | encodeBadArg _ hr =>
    exact .inl ⟨.badarg, rfl, fun g => by cases g <;> simp [RefusalFlag.Cause, Instr.wellFormed, hr]⟩
  | encodeNoRoom _ _ hr _ ht hroom =>
    have hrep : ¬ s.params.repeatCount = 0#32 := hr
    rw [preSequence_eq_formatPre, ht, s.lineRoom_eq_false_iff] at hroom
    exact .inl ⟨.lineovf, rfl, fun g => by cases g <;> simp [RefusalFlag.Cause, Instr.wellFormed, hrep, hroom]⟩
  | linepush _ _ hroom =>
    exact .inr fun g => ⟨rfl, by cases g <;> simp [RefusalFlag.Cause, Instr.wellFormed, hroom]⟩
  | linepushRefused _ _ hfull =>
    exact .inl ⟨.lineovf, rfl, fun g => by cases g <;> simp [RefusalFlag.Cause, Instr.wellFormed, hfull]⟩
  | synth _ hp =>
    exact .inr fun g => ⟨rfl, by cases g <;> simp [RefusalFlag.Cause, Instr.wellFormed, hp]⟩
  | synthRefused _ hp =>
    exact .inl ⟨.noprof, rfl, fun g => by cases g <;> simp [RefusalFlag.Cause, Instr.wellFormed, hp]⟩
  | reservedC | reservedD | reservedE | reservedF =>
    exact .inl ⟨.illcmd, rfl, fun g => by cases g <;> simp [RefusalFlag.Cause, Instr.wellFormed]⟩
  | nop | derive | deriveFailed | txclr | lineclr | rxbit | rxreset =>
    exact .inr fun g => ⟨by cases g <;> rfl, by cases g <;> simp [RefusalFlag.Cause, Instr.wellFormed]⟩

/-- A refusal flag after an instruction: set before, or by its cause (R23, R226). -/
theorem exec_flag_iff (h : exec i s = .next t) (g : RefusalFlag) :
    t.status.get g = true ↔ s.status.get g = true ∨ g.Cause i s := by
  obtain ⟨f, hset, hcause⟩ | hnone := exec_refusal_cases h
  · simp [hset, Status.get_set, hcause]
  · obtain ⟨hsame, hnot⟩ := hnone g
    simp [hsame, hnot]

/-- A flag whose cause is not met stays as it is. -/
theorem exec_flag_of_not_cause (h : exec i s = .next t) {g : RefusalFlag} (hnot : ¬ g.Cause i s) :
    t.status.get g = s.status.get g := by
  rw [Bool.eq_iff_iff, exec_flag_iff h, or_iff_left hnot]

/-- Only `SETP`, `GETP` and the reserved opcodes can be ill-formed. -/
theorem wellFormed_of_no_selector (hset : ∀ sel v, i ≠ .setp sel v) (hget : ∀ sel, i ≠ .getp sel) (hC : i ≠ .reservedC)
    (hD : i ≠ .reservedD) (hE : i ≠ .reservedE) (hF : i ≠ .reservedF) : i.wellFormed = true := by
  cases i with
  | setp sel v => exact absurd rfl (hset sel v)
  | getp sel => exact absurd rfl (hget sel)
  | reservedC => exact absurd rfl hC
  | reservedD => exact absurd rfl hD
  | reservedE => exact absurd rfl hE
  | reservedF => exact absurd rfl hF
  | _ => rfl

/-! ### The traces (R44 to R47) -/

theorem exec_lineOut_prefix (h : exec i s = .next t) : s.lineOut <+: t.lineOut := by
  cases exec_transition h with
  | encode | linepush => exact List.prefix_append _ _
  | setp _ _ _ _ _ ht => rw [(State.writeReg_eq_some ht).1]
  | _ => exact List.prefix_rfl

theorem exec_samp_prefix (h : exec i s = .next t) : s.samp <+: t.samp := by
  obtain ⟨-, -, hsamp⟩ | ⟨-, hsamp⟩ := exec_samp_cases h <;> rw [hsamp]
  exact List.prefix_append _ _

theorem exec_rxOut_prefix (h : exec i s = .next t) : s.rxOut <+: t.rxOut := by
  cases exec_transition h with
  | rxbit => exact List.prefix_append _ _
  | setp _ _ _ _ _ ht => rw [(State.writeReg_eq_some ht).1]
  | _ => exact List.prefix_rfl

theorem exec_rsp_prefix (h : exec i s = .next t) : s.rsp <+: t.rsp := by
  cases exec_transition h with
  | getp | getpRefused => exact List.prefix_append _ _
  | setp _ _ _ _ _ ht => rw [(State.writeReg_eq_some ht).1]
  | _ => exact List.prefix_rfl

/-! ### Where the model stops (R61, R231) -/

/-- An instruction completes, or it is `TXPUSH` or `ENCODE` with `TXLEN` outside the buffer. -/
theorem exec_completes_or_faults (i : Instr) (s : State) :
    (∃ t, exec i s = .next t) ∨
    (s.cfg.txbufSize < s.txlen.toNat ∧ (i = .encode ∨ ∃ u, i = .txpush u) ∧ ∃ f, exec i s = .fault f) := by
  cases i with
  | setp sel v =>
    obtain ⟨_, t, _, hexec⟩ | ⟨_, hexec⟩ := execSetp_cases sel v s <;> exact .inl ⟨_, hexec⟩
  | getp sel =>
    obtain ⟨_, _, _, hexec⟩ | ⟨_, hexec⟩ := execGetp_cases sel s <;> exact .inl ⟨_, hexec⟩
  | derive =>
    obtain ⟨_, _, _, hexec⟩ | ⟨_, hexec⟩ := execDerive_cases s <;> exact .inl ⟨_, hexec⟩
  | txpush u =>
    obtain ⟨_, hexec⟩ | ⟨_, hexec⟩ | ⟨hout, hfault⟩ := execTxpush_cases u s
    · exact .inl ⟨_, hexec⟩
    · exact .inl ⟨_, hexec⟩
    · exact .inr ⟨hout, .inr ⟨u, rfl⟩, hfault⟩
  | encode =>
    obtain ⟨_, hexec⟩ | ⟨_, hout, hfault⟩ | ⟨_, _, _, _, ⟨_, hexec⟩ | ⟨_, hexec⟩⟩ := execEncode_cases s
    · exact .inl ⟨_, hexec⟩
    · exact .inr ⟨hout, .inl rfl, hfault⟩
    · exact .inl ⟨_, hexec⟩
    · exact .inl ⟨_, hexec⟩
  | linepush b =>
    obtain ⟨_, hexec⟩ | ⟨_, hexec⟩ := execLinepush_cases b s <;> exact .inl ⟨_, hexec⟩
  | synth =>
    obtain ⟨_, hexec⟩ | ⟨_, hexec⟩ := execSynth_cases s <;> exact .inl ⟨_, hexec⟩
  | nop | txclr | lineclr | rxbit | rxreset | reservedC | reservedD | reservedE | reservedF => exact .inl ⟨_, rfl⟩

end

end Sys2Proof.Machine

namespace Sys2Proof.Proofs
open Sys2Proof.Machine

/-- Settles O55: one frame lemma for each piece; a refusal flag stays where its cause is excluded. -/
theorem everyPieceOfStateHasItsWriters : Obligations.EveryPieceOfStateHasItsWriters := by
  intro i s t h
  obtain ⟨hcfg, hcmd⟩ := exec_cfg_cmd h
  refine ⟨hcfg, hcmd, fun hi => exec_params hi h, fun hi => exec_profile_of_ne_derive hi h, fun hi => exec_text hi h,
    fun hpush henc => exec_line hpush henc h, fun hi => exec_samp hi h, fun hi => exec_rsp hi h, fun hi => exec_rx hi h,
    fun hi => ?_, fun hi => ?_, fun hi => ?_, fun hset hget hC hD hE hF => ?_, fun hpush henc => ?_⟩
  · exact exec_flag_of_not_cause h (g := .txovf) fun ⟨⟨u, hu⟩, _⟩ => hi u hu
  · exact exec_flag_of_not_cause h (g := .badarg) fun ⟨henc, _⟩ => hi henc
  · exact exec_flag_of_not_cause h (g := .noprof) fun ⟨hsynth, _⟩ => hi hsynth
  · have hwf := wellFormed_of_no_selector hset hget hC hD hE hF
    exact exec_flag_of_not_cause h (g := .illcmd) fun (hbad : i.wellFormed = false) => by simp [hwf] at hbad
  · refine exec_flag_of_not_cause h (g := .lineovf) ?_
    rintro (⟨⟨b, hb⟩, _⟩ | ⟨henc', _⟩)
    · exact hpush b hb
    · exact henc henc'

/-- Settles O56: the causes are those of `RefusalFlag.Cause`. -/
theorem refusalFlagsAreSetExactlyByTheirCauses : Obligations.RefusalFlagsAreSetExactlyByTheirCauses :=
  fun _ _ _ h => ⟨exec_flag_iff h .txovf, exec_flag_iff h .badarg, exec_flag_iff h .noprof, exec_flag_iff h .illcmd,
    exec_flag_iff h .lineovf⟩

/-- Settles O57: each trace is left or appended to; both cases of `GETP` append one word. -/
theorem tracesOnlyGrowAtTheTail : Obligations.TracesOnlyGrowAtTheTail := by
  refine ⟨fun i s t h => ⟨exec_lineOut_prefix h, exec_samp_prefix h, exec_rxOut_prefix h, exec_rsp_prefix h⟩,
    fun sel s => ?_⟩
  obtain ⟨_, _, _, hexec⟩ | ⟨_, hexec⟩ := execGetp_cases sel s <;> exact ⟨_, hexec, by simp⟩

/-- Settles O58, by the two ends an instruction can have. -/
theorem onlyTxlenOutsideTheBufferFaults : Obligations.OnlyTxlenOutsideTheBufferFaults := by
  intro i s
  obtain ⟨t, hnext⟩ | ⟨hout, hi, f, hfault⟩ := exec_completes_or_faults i s
  · exact ⟨fun _ hf => (nomatch hnext.symm.trans hf), fun _ hr => (nomatch hnext.symm.trans hr)⟩
  · exact ⟨fun _ _ => ⟨hout, hi⟩, fun _ hr => (nomatch hfault.symm.trans hr)⟩

end Sys2Proof.Proofs

/-! PROOFS. The invariant of Safety.lean: it holds after reset, every step keeps it, and from it every step completes.
One lemma for each part of `Inv`; the theorems that settle the obligations come last. -/

namespace Sys2Proof.Machine

section
variable {i : Instr} {s t : State}

/-! ### The text (R30) -/

theorem exec_txInv (hcfg : s.cfg.wf) (hinv : s.txInv) (h : exec i s = .next t) : t.txInv := by
  obtain ⟨hlen, hwf, hcells⟩ := hinv
  cases exec_transition h with
  | txclr => exact ⟨Nat.zero_le _, hwf, hcells⟩
  | txpush _ u hlt =>
    refine ⟨(toNat_txlen_add_one hcfg hlt).trans_le hlt, Memory.wf_write hwf _ _, fun c hc => ?_⟩
    obtain rfl | hold := Memory.mem_write hc
    · exact hlt
    · exact hcells c hold
  | setp _ _ _ _ _ ht => rw [(State.writeReg_eq_some ht).1]; exact ⟨hlen, hwf, hcells⟩
  | _ => exact ⟨hlen, hwf, hcells⟩

/-! ### The line queue (R33) -/

/-- Bits that fit go to the tails of `LINE` and `LINEOUT` alike. -/
theorem State.lineInv_pushLine (hinv : s.lineInv) {bits : List Bit}
    (hroom : ∀ depth, s.cfg.lineDepth = some depth → s.line.length + bits.length ≤ depth) :
    (s.pushLine bits).lineInv := by
  obtain ⟨-, hsuffix⟩ := hinv
  exact ⟨fun depth hdepth => List.length_append.trans_le (hroom depth hdepth), List.suffix_append_self_iff.2 hsuffix⟩

theorem State.lineInv_of_line_eq_nil (hline : t.line = []) : t.lineInv := by
  simp [State.lineInv, hline]

theorem exec_lineInv (hinv : s.lineInv) (h : exec i s = .next t) : t.lineInv := by
  cases exec_transition h with
  | encode _ text _ _ _ hroom =>
    refine State.lineInv_pushLine hinv ?_
    rwa [lineBits, length_differential, ← s.lineRoom_iff]
  | linepush _ b hroom =>
    refine State.lineInv_pushLine hinv fun depth hdepth => Nat.lt_of_le_of_ne (hinv.1 depth hdepth) fun hfull => ?_
    exact hroom (hfull ▸ hdepth)
  | lineclr | synth => exact State.lineInv_of_line_eq_nil rfl
  | setp _ _ _ _ _ ht => rw [(State.writeReg_eq_some ht).1]; exact hinv
  | _ => exact hinv

/-! ### The profile (R23, R24) -/

/-- The rates that `DERIVE` accepts give registers of at least 1 (R112). -/
theorem State.profileInv_storeProfile (htb : 1 ≤ s.params.tbps.toNat) (hle : s.params.tbps.toNat ≤ s.params.srate.toNat)
    (hcar : s.params.srate.toNat ≤ s.params.tcar.toNat * (s.params.srate.toNat / s.params.tbps.toNat)) :
    (s.storeProfile (s.params.srate.toNat / s.params.tbps.toNat)
      (s.params.tcar.toNat * (s.params.srate.toNat / s.params.tbps.toNat) / s.params.srate.toNat)).profileInv := by
  have hsr : 1 ≤ s.params.srate.toNat := htb.trans hle
  refine ⟨by simp, fun _ => ⟨hsr, ?_, ?_⟩, by simp⟩
  · exact (Nat.div_pos hle htb).trans_eq (toNat_ofNat_samplesPerBit _ _).symm
  · exact (Nat.div_pos hcar hsr).trans_eq (toNat_ofNat_periodsPerBit _ _ _).symm

theorem exec_profileInv (hinv : s.profileInv) (h : exec i s = .next t) : t.profileInv := by
  by_cases hi : i = .derive
  · subst hi
    obtain ⟨htb, hle, hcar, hexec⟩ | ⟨_, hexec⟩ := execDerive_cases s <;> cases hexec.symm.trans h
    · exact State.profileInv_storeProfile htb hle hcar
    · simp [State.profileInv]
  · obtain ⟨hprofile, hpvalid, hcfgerr⟩ := exec_profile_of_ne_derive hi h
    rwa [State.profileInv, hprofile, hpvalid, hcfgerr]

/-! ### The decoder registers (R176) -/

/-- `bitCnt` one up, and back to 0 at 8, stays below 8. -/
theorem toNat_bitCnt_wrap_le {c : BitVec 4} (h : c.toNat ≤ 7) : (if c + 1 = 8 then 0 else c + 1).toNat ≤ 7 := by
  revert c
  decide

theorem toNat_bitCnt_add_one_le {c : BitVec 4} (h : c.toNat ≤ 7) (hne : c + 1 ≠ 8) : (c + 1).toNat ≤ 7 := by
  revert c
  decide

/-- The ones test of Decode keeps the count below five. -/
theorem toNat_onesCnt_wrap_le {c : BitVec 3} (h : c.toNat ≤ 4) (b : Bit) {o : BitVec 3}
    (ho : o = if b then (if c = 7 then 7 else c + 1) else 0) : o ≠ 5 → o.toNat ≤ 4 := by
  subst ho
  revert c b
  decide

theorem Decoder.inv_reset : Decoder.reset.inv := by
  simp [Decoder.inv, Decoder.reset]

/-- Before the decoder locks, the mode to resume is WaitStart (R176 (e)). -/
theorem Decoder.resumeMode_of_waiting {d : Decoder} (hinv : d.inv) (hmode : d.mode = .waitSync ∨ d.mode = .waitStart) :
    d.resumeMode = .waitStart := by
  obtain ⟨-, -, -, -, -, hresume⟩ := hinv
  cases hr : d.resumeMode with
  | waitStart => rfl
  | decode => obtain h | h := hmode <;> simp [hr, h] at hresume

/-- What a locked decoder, in Decode or in a skip, has to keep. -/
theorem Decoder.inv_of_locked {d : Decoder} (hmode : d.mode = .decode ∨ d.mode = .skipOne ∨ d.mode = .skipTwo)
    (hresume : d.resumeMode = .decode) (hsync : d.syncRun = 0) (hbit : d.bitCnt.toNat ≤ 7)
    (hones : d.mode = .decode → d.onesCnt.toNat ≤ 4) (hskip : d.mode = .skipOne ∨ d.mode = .skipTwo → d.onesCnt = 0) :
    d.inv :=
  ⟨hbit, by simp [hsync], fun _ => hsync, hones, hskip, by simp [hresume, hmode]⟩

theorem Decoder.inv_desyncReset (d : Decoder) : d.desyncReset.inv := by
  simp [Decoder.inv, desyncReset]

/-- The WaitSync arm leaves to WaitStart only: outside Decode and the skips the mode to resume is WaitStart. -/
theorem Decoder.inv_waitSyncArm {e : Decoder} (hmode : e.mode = .waitSync) (hresume : e.resumeMode = .waitStart)
    (hsync : e.syncRun = 0) (hbit : (if e.bitCnt = 8 then 0 else e.bitCnt).toNat ≤ 7) : e.waitSyncArm.inv := by
  by_cases h : e.shiftBuf = 0x7E
  · rw [waitSyncArm_of_sync h]
    simp [Decoder.inv, hresume, ResumeMode.toMode]
  · rw [waitSyncArm_of_ne_sync h]
    simpa [Decoder.inv, hmode, hresume, hsync] using hbit

/-- The WaitStart arm locks at the fifth sync word, so the run it keeps is at most four. -/
theorem Decoder.inv_waitStartArm {e : Decoder} (hmode : e.mode = .waitStart) (hresume : e.resumeMode = .waitStart)
    (hsync : e.syncRun.toNat ≤ 4) (hbit : e.bitCnt ≠ 8 → e.bitCnt.toNat ≤ 7) : e.waitStartArm.inv := by
  by_cases h8 : e.bitCnt = 8
  · by_cases h : e.shiftBuf = 0x7E
    · by_cases hrun : e.syncRun.toNat + 1 < 5
      · rw [waitStartArm_of_sync h8 h hrun]
        have hnext : (e.syncRun + 1).toNat ≤ 4 := by bv_omega
        simpa [Decoder.inv, hmode, hresume] using hnext
      · rw [waitStartArm_of_last_sync h8 h (Nat.not_lt.1 hrun)]
        simp [Decoder.inv]
    · rw [waitStartArm_of_other_byte h8 h]
      simp [Decoder.inv, hmode, hresume]
  · rw [waitStartArm_of_inside_byte h8]
    simp [Decoder.inv, hmode, hresume, hsync, hbit h8]

/-- Every arm keeps the invariants of R176. -/
theorem Decoder.inv_rxStep {d : Decoder} (hinv : d.inv) (raw : Bit) : (d.rxStep raw).1.inv := by
  have hwait := resumeMode_of_waiting hinv
  obtain ⟨hbit, hsync, hstart, hones, hskip, hresume⟩ := hinv
  have hwrap := toNat_bitCnt_wrap_le hbit
  cases hmode : d.mode with
  | skipOne =>
    have hzero : d.onesCnt = 0 := hskip (.inl hmode)
    rw [rxStep_of_skipOne hmode]
    refine inv_of_locked ?_ (hresume.2 (by simp [hmode])) (hstart (by simp [hmode])) hbit (by simp [hzero])
      fun _ => hzero
    cases (d.lastRaw ^^ raw) <;> simp
  | skipTwo =>
    have hzero : d.onesCnt = 0 := hskip (.inr hmode)
    rw [rxStep_of_skipTwo hmode]
    split
    · exact inv_desyncReset _
    · exact inv_of_locked (.inl rfl) (hresume.2 (by simp [hmode])) (hstart (by simp [hmode])) (by simp)
        (by simp [hzero]) fun _ => hzero
  | waitSync =>
    rw [rxStep_of_waitSync hmode rfl]
    exact inv_waitSyncArm hmode (hwait (.inl hmode)) (hstart (by simp [hmode])) hwrap
  | waitStart =>
    rw [rxStep_of_waitStart hmode rfl]
    exact inv_waitStartArm hmode (hwait (.inr hmode)) hsync (toNat_bitCnt_add_one_le hbit)
  | decode =>
    rw [rxStep_of_decode hmode rfl]
    have hcount := toNat_onesCnt_wrap_le (hones hmode) (d.lastRaw ^^ raw) rfl
    have hlocked := hresume.2 (.inl hmode)
    have hrun : d.syncRun = 0 := hstart (by simp [hmode])
    split
    · exact inv_of_locked (.inr (.inl rfl)) hlocked hrun hwrap (by simp) fun _ => rfl
    · exact inv_of_locked (.inl rfl) hlocked hrun hwrap (fun _ => hcount ‹_›) (by simp)

theorem exec_decInv (hinv : s.dec.inv) (h : exec i s = .next t) : t.dec.inv := by
  cases exec_transition h with
  | rxbit _ raw => exact Decoder.inv_rxStep hinv raw
  | rxreset => exact Decoder.inv_reset
  | setp _ _ _ _ _ ht => rw [(State.writeReg_eq_some ht).1]; exact hinv
  | _ => exact hinv

/-! ### The traces (R44, R45) -/

theorem exec_rxLog_suffix (hinv : s.rxLog <:+ s.rxOut) (h : exec i s = .next t) : t.rxLog <:+ t.rxOut := by
  cases exec_transition h with
  | rxbit => exact List.suffix_append_self_iff.2 hinv
  | rxreset => exact List.nil_suffix
  | setp _ _ _ _ _ ht => rw [(State.writeReg_eq_some ht).1]; exact hinv
  | _ => exact hinv

theorem exec_traceInv (hinv : s.traceInv) (h : exec i s = .next t) : t.traceInv := by
  obtain ⟨hrx, hsamp⟩ := hinv
  obtain ⟨hcfg, -⟩ := exec_cfg_cmd h
  refine ⟨exec_rxLog_suffix hrx h, fun e he => ?_⟩
  rw [hcfg]
  obtain ⟨-, -, hnew⟩ | ⟨-, hsame⟩ := exec_samp_cases h
  · rw [hnew, List.mem_append] at he
    obtain hold | hnew := he
    · exact hsamp e hold
    · exact (State.mem_quantise hnew).1
  · exact hsamp e (hsame ▸ he)

/-! ### All parts together -/

theorem exec_inv (hinv : Inv s) (h : exec i s = .next t) : Inv t where
  cfg := (exec_cfg_cmd h).1 ▸ hinv.cfg
  tx := exec_txInv hinv.cfg hinv.tx h
  line := exec_lineInv hinv.line h
  profile := exec_profileInv hinv.profile h
  dec := exec_decInv hinv.dec h
  trace := exec_traceInv hinv.trace h

/-- The invariant does not speak of the pending words. -/
theorem Inv.withCmd (hinv : Inv s) (c : List CmdWord) : Inv (s.withCmd c) :=
  ⟨hinv.cfg, hinv.tx, hinv.line, hinv.profile, hinv.dec, hinv.trace⟩

theorem inv_resetWith {c : Config} (hc : c.wf) : Inv (State.resetWith c) where
  cfg := hc
  tx := ⟨Nat.zero_le _, Memory.wf_reset c, by simp⟩
  line := State.lineInv_of_line_eq_nil rfl
  profile := by simp [State.profileInv]
  dec := Decoder.inv_reset
  trace := by simp [State.traceInv]

end

end Sys2Proof.Machine

namespace Sys2Proof.Proofs
open Sys2Proof.Machine

/-- Settles O12: a step is an instruction on the state without the head of `CMD`, or nothing. -/
theorem everyStepKeepsTheInvariant : Obligations.EveryStepKeepsTheInvariant := by
  intro s t hinv hstep
  cases hcmd : s.cmd with
  | nil =>
    cases (step_of_cmd_nil hcmd).symm.trans hstep
    exact hinv
  | cons w rest => exact exec_inv (hinv.withCmd rest) ((step_of_cmd_cons hcmd).symm.trans hstep)

/-- Settles O13: `TXLEN` is inside the buffer, so the model's one stop is out of reach. -/
theorem everyStepFromTheInvariantCompletes : Obligations.EveryStepFromTheInvariantCompletes := by
  intro s hinv
  cases hcmd : s.cmd with
  | nil => exact ⟨s, step_of_cmd_nil hcmd⟩
  | cons w rest =>
    obtain ⟨t, hnext⟩ | ⟨hout, -⟩ := exec_completes_or_faults (decode w) (s.withCmd rest)
    · exact ⟨t, (step_of_cmd_cons hcmd).trans hnext⟩
    · exact absurd (hinv.withCmd rest).tx.1 (Nat.not_le.2 hout)

/-- Settles O11; the default parameters of R8 are legal. -/
theorem resetSatisfiesTheInvariant : Obligations.ResetSatisfiesTheInvariant :=
  ⟨fun _ => inv_resetWith, inv_resetWith (by decide)⟩

end Sys2Proof.Proofs

/-! PROOFS. FENC, second part: a loaded text (10_state.md R30, 30_encoding.md R103), the runs of ones in stuffed payload
(R87) and the length of a transmission (R91, R148). The lemmas come first, the theorems that settle the obligations
last. -/

namespace Sys2Proof.Machine

/-! ### Loading a text (R103, R137) -/

/-- The text a memory holds in its first `n` units. -/
def Memory.text (m : List Host.Cell) (n : Nat) : List CodeUnit := (List.range n).map (Memory.read m)

/-- A unit written just behind a text lengthens the text by it. -/
theorem Memory.text_write {m : List Host.Cell} (hm : Memory.wf m) (n : Nat) (u : CodeUnit) :
    Memory.text (Memory.write m n u) (n + 1) = Memory.text m n ++ [u] := by
  have hbefore : ∀ a ∈ List.range n, Memory.read (Memory.write m n u) a = Memory.read m a := fun a ha => by
    rw [Memory.read_write hm, if_neg (List.mem_range.1 ha).ne]
  rw [Memory.text, List.range_succ, List.map_append, List.map_congr_left hbefore, List.map_singleton,
    Memory.read_write hm, if_pos rfl, Memory.text]

/-- One `TXPUSH` per code unit, with room for all of them, appends the units to the text. -/
theorem execAll_txpush (text : List CodeUnit) {s : State} (hcfg : s.cfg.wf) (hm : Memory.wf s.txbuf)
    (hroom : s.txlen.toNat + text.length ≤ s.cfg.txbufSize) :
    ∃ m n, execAll (text.map .txpush) s = .next { s with txbuf := m, txlen := n } ∧
      n.toNat = s.txlen.toNat + text.length ∧ Memory.wf m ∧
      Memory.text m n.toNat = Memory.text s.txbuf s.txlen.toNat ++ text := by
  induction text generalizing s with
  | nil => exact ⟨s.txbuf, s.txlen, rfl, rfl, hm, by simp⟩
  | cons u us ih =>
    rw [List.length_cons] at hroom
    have hlt : s.txlen.toNat < s.cfg.txbufSize := by omega
    have hlen := toNat_txlen_add_one hcfg hlt
    obtain ⟨m, n, hexec, hn, hwf, htext⟩ :=
      ih (s := { s with txbuf := Memory.write s.txbuf s.txlen.toNat u, txlen := s.txlen + 1 }) hcfg
        (Memory.wf_write hm _ u) (by change (s.txlen + 1).toNat + us.length ≤ s.cfg.txbufSize; omega)
    refine ⟨m, n, ?_, ?_, hwf, ?_⟩
    · simp only [List.map_cons, execAll, execTxpush_of_lt hlt u, hexec]
    · rw [hn, hlen, List.length_cons]
      omega
    · rw [htext, hlen, Memory.text_write hm, List.append_assoc, List.singleton_append]

/-! ### Runs of ones in stuffed payload (R87) -/

/-- Where five ones can stand in at most five ones and a zero before more bits: at the very front, or behind the
zero. -/
theorem five_ones_cases {n : Nat} (hn : n ≤ 5) {l a z : List Bit}
    (h : List.replicate n true ++ false :: l = a ++ List.replicate 5 true ++ z) :
    z = false :: l ∨ ∃ a', l = a' ++ List.replicate 5 true ++ z := by
  induction n generalizing a with
  | zero =>
    cases a with
    | nil => simp [List.replicate_succ] at h
    | cons x a => exact .inr ⟨a, by simpa using (List.cons.inj h).2⟩
  | succ n ih =>
    cases a with
    | nil =>
      have hn4 : n ≤ 4 := by omega
      interval_cases n <;> simp [List.replicate_succ] at h
      exact .inl h.symm
    | cons x a => exact ih (by omega) (by simpa [List.replicate_succ] using (List.cons.inj h).2)

/-- Five ones in the bits out, `ones` ones already before them, are followed by a zero. -/
theorem stuffBits_five_ones {ones : Nat} (hones : ones ≤ 4) {data a z : List Bit}
    (h : List.replicate ones true ++ (stuffBits ones data).1 = a ++ List.replicate 5 true ++ z) :
    ∃ z', z = false :: z' := by
  induction data generalizing ones a with
  | nil =>
    have hlen := congrArg List.length h
    simp [stuffBits] at hlen
    omega
  | cons b bs ih =>
    obtain ⟨rfl, hb⟩ | ⟨rfl, rfl, hb⟩ | ⟨rfl, hne, hb⟩ := stuffBit_cases ones b
    · simp only [stuffBits, hb] at h
      obtain hz | ⟨a', ha'⟩ := five_ones_cases (by omega) h
      · exact ⟨_, hz⟩
      · exact ih (Nat.zero_le 4) ha'
    · simp only [stuffBits, hb] at h
      obtain hz | ⟨a', ha'⟩ := five_ones_cases (n := 5) (le_refl 5) h
      · exact ⟨_, hz⟩
      · exact ih (Nat.zero_le 4) ha'
    · refine ih (ones := ones + 1) (by omega) (a := a) ?_
      simpa [stuffBits, hb, List.replicate_succ'] using h

/-- The first bit out is the bit in. -/
theorem stuffBit_eq_cons (ones : Nat) (b : Bit) : ∃ tail, (stuffBit ones b).1 = b :: tail := by
  obtain ⟨rfl, hb⟩ | ⟨rfl, _, hb⟩ | ⟨rfl, _, hb⟩ := stuffBit_cases ones b <;> exact ⟨_, by rw [hb]⟩

/-- Stuffing from a given count loses nothing. -/
theorem stuffBits_injective (ones : Nat) {data data' : List Bit}
    (h : (stuffBits ones data).1 = (stuffBits ones data').1) : data = data' := by
  induction data generalizing ones data' with
  | nil =>
    cases data' with
    | nil => rfl
    | cons b bs =>
      obtain ⟨tail, hb⟩ := stuffBit_eq_cons ones b
      simp [stuffBits, hb] at h
  | cons b bs ih =>
    obtain ⟨tail, hb⟩ := stuffBit_eq_cons ones b
    cases data' with
    | nil => simp [stuffBits, hb] at h
    | cons b' bs' =>
      obtain ⟨tail', hb'⟩ := stuffBit_eq_cons ones b'
      obtain rfl : b = b' := by
        simp only [stuffBits, hb, hb'] at h
        exact (List.cons.inj h).1
      rw [ih (stuffBit ones b).2 (List.append_cancel_left h)]

/-! ### The length of a transmission (R91, R148) -/

/-- Each stuffed bit uses up five ones, counting those already out. -/
theorem length_stuffBits (ones : Nat) (bs : List Bit) :
    ∃ stuffed, (stuffBits ones bs).1.length = bs.length + stuffed ∧
      5 * stuffed + (stuffBits ones bs).2 ≤ bs.length + ones := by
  induction bs generalizing ones with
  | nil => exact ⟨0, rfl, by simp [stuffBits]⟩
  | cons b bs ih =>
    obtain ⟨stuffed, hlen, hle⟩ := ih (stuffBit ones b).2
    simp only [stuffBits, List.length_append, List.length_cons, hlen]
    obtain ⟨_, hb⟩ | ⟨_, _, hb⟩ | ⟨_, _, hb⟩ := stuffBit_cases ones b <;> rw [hb] at hle ⊢
    · exact ⟨stuffed, by simp; omega, by omega⟩
    · exact ⟨stuffed + 1, by simp; omega, by omega⟩
    · exact ⟨stuffed, by simp; omega, by omega⟩

/-- The units of one repetition: a sync word for every tenth unit counted, and at most one stuffed bit for five bits. -/
theorem length_encodeUnits {frameCnt : Nat} (h : frameCnt ≤ 9) (ones : Nat) (text : List CodeUnit) :
    ∃ stuffed, (encodeUnits frameCnt ones text).1.length =
        8 * text.length + 8 * ((frameCnt + text.length) / 10) + stuffed ∧
      5 * stuffed ≤ 8 * text.length + ones := by
  induction text generalizing frameCnt ones with
  | nil => exact ⟨0, by simp [encodeUnits]; omega, by simp⟩
  | cons u us ih =>
    rw [encodeUnits, List.length_cons]
    have hunit : (toBits u).toList.length = 8 := by simp
    split
    next hten =>
      have hten' : frameCnt + 1 = 10 := hten
      obtain ⟨st, hlen, hle⟩ := length_stuffBits 0 (toBits u).toList
      obtain ⟨st', hlen', hle'⟩ := ih (frameCnt := 0) (by omega) (stuffBits 0 (toBits u).toList).2
      refine ⟨st + st', ?_, ?_⟩
      · simp [hlen, hlen', sync]
        omega
      · omega
    next hten =>
      have hten' : frameCnt + 1 ≠ 10 := hten
      obtain ⟨st, hlen, hle⟩ := length_stuffBits ones (toBits u).toList
      obtain ⟨st', hlen', hle'⟩ := ih (frameCnt := frameCnt + 1) (by omega) (stuffBits ones (toBits u).toList).2
      refine ⟨st + st', ?_, ?_⟩
      · simp [hlen, hlen']
        omega
      · omega

/-- `n` repetitions: the units are counted across them, the ones from 0 in each. -/
theorem length_encodeRepetitions {frameCnt : Nat} (h : frameCnt ≤ 9) (text : List CodeUnit) (n : Nat) :
    ∃ stuffed, (encodeRepetitions text n frameCnt).length =
        48 * n + 8 * (text.length * n) + 8 * ((frameCnt + text.length * n) / 10) + stuffed ∧
      5 * stuffed ≤ 8 * (text.length * n) := by
  induction n generalizing frameCnt with
  | zero => exact ⟨0, by simp [encodeRepetitions]; omega, by simp⟩
  | succ n ih =>
    have hcnt : (encodeUnits frameCnt 0 text).2 = (frameCnt + text.length) % 10 := by rw [encodeUnits_eq h]
    obtain ⟨st, hlen, hle⟩ := length_encodeUnits h 0 text
    obtain ⟨st', hlen', hle'⟩ := ih (frameCnt := (frameCnt + text.length) % 10) (by omega)
    refine ⟨st + st', ?_, ?_⟩
    · simp only [encodeRepetitions, List.length_append, length_syncWords, hcnt, hlen, hlen', Nat.mul_succ]
      omega
    · rw [Nat.mul_succ]
      omega

end Sys2Proof.Machine

namespace Sys2Proof.Proofs
open Sys2Proof.Machine

/-- Settles O27: after `TXCLR` the text is empty, and every `TXPUSH` appends its unit. -/
theorem loadedTextIsWhatTxbufHolds : Obligations.LoadedTextIsWhatTxbufHolds := by
  intro s text hcfg hm hroom
  obtain ⟨m, n, hexec, hn, hwf, htext⟩ := execAll_txpush text (s := { s with txlen := 0 }) hcfg hm
    (by simpa using hroom)
  have hlen : n.toNat = text.length := by simpa using hn
  exact ⟨m, n, hexec, hlen, hwf, by simpa [Memory.text, hlen] using htext⟩

/-- Settles O31, with no ones before the stretch. -/
theorem stuffedPayloadBreaksEveryRunOfFive : Obligations.StuffedPayloadBreaksEveryRunOfFive :=
  ⟨fun _ _ _ h => stuffBits_five_ones (Nat.zero_le 4) h, fun _ _ h => stuffBits_injective 0 h⟩

/-- Settles O32: the lengths of the parts add up; the differential stage keeps the length. -/
theorem transmissionLengthFollowsTheFormula : Obligations.TransmissionLengthFollowsTheFormula := by
  refine ⟨fun p r text => ?_, by simp [lineBits, preSequence, encodeRepetitions, encodeUnits, endMarker, sync]⟩
  obtain ⟨stuffed, hlen, hle⟩ := length_encodeRepetitions (Nat.zero_le 9) text r
  refine ⟨stuffed, ?_, ?_⟩
  · rw [Nat.mul_assoc]
    omega
  · rw [lineBits, length_differential, preSequence, List.length_append, List.length_append, length_syncWords, hlen,
      Nat.zero_add, Nat.mul_assoc]
    simp only [endMarker, sync]
    simp
    omega

end Sys2Proof.Proofs

/-! PROOFS. WGEN, second part: the magnitude of the samples (44_waveform.md R198) and the phase at the start of every
bit (R200). -/

namespace Sys2Proof.Machine

/-- The phase accumulator is 0 again after the samples of one bit (R200). -/
theorem holdSymbol_bit (spb ppb : Nat) (sym : Bit) :
    holdSymbol spb ppb sym spb 0 = ((List.range spb).map (fun k => .carrier sym (ppb * k % spb) spb), 0) := by
  simpa using holdSymbol_eq spb ppb sym spb 0

/-- The signal part bit by bit: each bit gives the same samples wherever it stands. -/
theorem signalSamples_eq_flatMap (spb ppb : Nat) (bits : List Bit) :
    signalSamples spb ppb 0 bits =
      bits.flatMap fun b => (List.range spb).map fun k => .carrier b (ppb * k % spb) spb := by
  induction bits with
  | nil => rfl
  | cons b bs ih => rw [signalSamples, holdSymbol_bit, ih, List.flatMap_cons]

/-- The other symbol is the other sign. -/
theorem Sample.value_carrier_false (acc spb : Nat) :
    (Sample.carrier false acc spb).value = -(Sample.carrier true acc spb).value := by
  simp [Sample.value, symbolValue]

end Sys2Proof.Machine

namespace Sys2Proof.Proofs
open Sys2Proof.Machine

/-- Settles O39: a cosine is at most 1, what is on `SAMP` went through the machine's `Q`, and the first sample of bit
`b` is sample number `b × SPB`, where the phase accumulator is 0. -/
theorem sampleMagnitudeIsAtMostOne : Obligations.SampleMagnitudeIsAtMostOne := by
  refine ⟨fun s e _ => e.exact.abs_value_le_one, fun s hinv hid v hv => ?_, fun s g hp hspb hg => ?_⟩
  · obtain ⟨e, he, rfl⟩ := List.mem_map.1 hv
    exact QSample.abs_value_le_one ((hinv.trace.2 e he).trans hid)
  · obtain ⟨t, hexec, hsamples⟩ := synthSamplesAreTheModulatedCarrier s _ _ g hp rfl rfl hg hspb
    refine ⟨t, hexec, fun b hb => ?_⟩
    obtain ⟨x, e, hget, rfl, hx, -⟩ := hsamples b (b * s.profile.spb.toNat) _ (List.getElem?_eq_getElem hb)
      (Nat.mul_div_cancel b hspb)
    have hphase : s.profile.ppb.toNat * (b * s.profile.spb.toNat) % s.profile.spb.toNat = 0 := by
      rw [← Nat.mul_assoc, Nat.mul_mod_left]
    have hvalue : x.value = 1 ∨ x.value = -1 := by
      rw [hx, hphase]
      cases s.line[b] <;> simp [Sample.value, symbolValue]
    exact ⟨_, hget, hvalue, fun hid => by rwa [QSample.value_mk, hid, Quantiser.identity_apply]⟩

/-- Settles O40, from the signal part bit by bit. -/
theorem everyBitStartsAtPhaseZero : Obligations.EveryBitStartsAtPhaseZero := by
  refine fun spb ppb _ => ⟨fun a b => ?_, ?_⟩
  · simp only [signalSamples_eq_flatMap, List.flatMap_append]
  · simp [signalSamples_eq_flatMap, Sample.value_carrier_false]

end Sys2Proof.Proofs

/-! PROOFS. FDEC, second part: the common part (43_decoder.md R164), how WaitSync is entered and WaitStart left (R175,
R182), a sync word in Decode (R171), a complemented line (R178), and `RXRESET` against a fresh machine (R181). The
lemmas come first, the theorems that settle the obligations last. -/

namespace Sys2Proof.Machine

/-! ### The common part (R163, R164) -/

/-- The recovered bit enters below the seven bits that stay. -/
theorem toNat_shiftBit (buf : BitVec 8) (b : Bit) : (shiftBit buf b).toNat = buf.toNat * 2 % 256 + b.toNat := by
  have hlow : b.toNat < 2 ^ 1 := b.toNat_lt
  have hhigh : buf.toNat * 2 % 256 = (buf.toNat % 128) <<< 1 := by
    rw [Nat.shiftLeft_eq]
    omega
  have hbit : ((BitVec.ofBool b).setWidth 8).toNat = b.toNat := by cases b <;> rfl
  rw [shiftBit, BitVec.toNat_or, BitVec.toNat_shiftLeft, hbit, Nat.shiftLeft_eq, pow_one, hhigh,
    Nat.shiftLeft_add_eq_or_of_lt hlow]

/-- `onesCnt` counts ones up to 7. -/
theorem toNat_onesCnt_add_one (c : BitVec 3) : (if c = 7 then 7 else c + 1).toNat = min (c.toNat + 1) 7 := by
  revert c
  decide

/-! ### How the modes follow each other (R175, R182) -/

section
variable {d : Decoder} {raw : Bit}

theorem Decoder.waitStartArm_mode {e : Decoder} (hmode : e.mode = .waitStart) :
    e.waitStartArm.mode = .waitStart ∨ e.waitStartArm.mode = .decode := by
  rw [waitStartArm]
  split_ifs
  · exact .inr rfl
  · exact .inl hmode
  · exact .inl hmode

theorem Decoder.rxStep_mode_of_waitStart (hmode : d.mode = .waitStart) (raw : Bit) :
    (d.rxStep raw).1.mode = .waitStart ∨ (d.rxStep raw).1.mode = .decode := by
  rw [rxStep_of_waitStart hmode rfl]
  exact waitStartArm_mode hmode

/-- Only the desync reset, on a recovered 1 in SkipTwo, leads to WaitSync. -/
theorem Decoder.skipTwo_of_rxStep_waitSync (hne : d.mode ≠ .waitSync) (h : (d.rxStep raw).1.mode = .waitSync) :
    d.mode = .skipTwo ∧ raw = !d.lastRaw := by
  cases hmode : d.mode with
  | waitSync => exact absurd hmode hne
  | waitStart => obtain hm | hm := rxStep_mode_of_waitStart hmode raw <;> rw [hm] at h <;> cases h
  | decode =>
    rw [rxStep_of_decode hmode rfl] at h
    dsimp only at h
    split at h <;> cases h
  | skipOne =>
    rw [rxStep_of_skipOne hmode] at h
    dsimp only at h
    split at h <;> cases h
  | skipTwo =>
    rw [rxStep_of_skipTwo hmode] at h
    refine ⟨rfl, ?_⟩
    cases hraw : raw <;> cases hlast : d.lastRaw <;> simp_all

end

/-! ### A sync word in Decode, whatever `bitCnt` is (R171) -/

theorem Decoder.preRun_singleton (d : Decoder) (b : Bit) :
    d.preRun [b] = ((d.rxStep (b ^^ d.lastRaw)).1, (d.rxStep (b ^^ d.lastRaw)).2.toList) := by
  rw [preRun_cons (e := (d.rxStep (b ^^ d.lastRaw)).1) (out := (d.rxStep (b ^^ d.lastRaw)).2) rfl, preRun_nil,
    List.append_nil]

section
variable {d : Decoder} {ones : Nat}

/-- One recovered bit in Decode, on the mode and on each of the two counters. -/
theorem Decoder.rxStep_counts_of_decode (hmode : d.mode = .decode) (hones : ones ≤ 4)
    (hcount : d.onesCnt = BitVec.ofNat 3 ones) (b : Bit) :
    (d.rxStep (b ^^ d.lastRaw)).1.mode = (if b = true ∧ ones = 4 then .skipOne else .decode) ∧
    (d.rxStep (b ^^ d.lastRaw)).1.onesCnt = BitVec.ofNat 3 (stuffBit ones b).2 ∧
    (d.bitCnt.toNat ≤ 6 →
      (d.rxStep (b ^^ d.lastRaw)).1.bitCnt = d.bitCnt + 1 ∧ (d.rxStep (b ^^ d.lastRaw)).2 = none) := by
  have hrec : (d.lastRaw ^^ (b ^^ d.lastRaw)) = b := d.recovered_differential b
  have hshift : (if b then (if d.onesCnt = 7 then 7 else d.onesCnt + 1) else 0) =
      BitVec.ofNat 3 (if b then ones + 1 else 0) := by
    rw [hcount]
    exact congrArg Decoder.onesCnt (shiftIn_decoding hones d.shiftBuf 0 d.lastRaw b)
  obtain ⟨h5, hwrap⟩ := onesCnt_wrap hones b hshift
  rw [rxStep_of_decode hmode rfl, hrec]
  refine ⟨?_, hwrap, fun hbit => ?_⟩
  · simp only [Decoder.shiftIn, h5]
  · have h8 : d.bitCnt + 1 ≠ 8 := by bv_omega
    exact ⟨if_neg h8, if_neg h8⟩

/-- A zero and up to four ones in Decode: only the counters go on. -/
theorem Decoder.preRun_zero_ones (hmode : d.mode = .decode) (hones : d.onesCnt.toNat ≤ 4) {n : Nat} (hn : n ≤ 4) :
    (d.preRun (false :: List.replicate n true)).1.mode = .decode ∧
    (d.preRun (false :: List.replicate n true)).1.onesCnt = BitVec.ofNat 3 n ∧
    (d.bitCnt = 0 → (d.preRun (false :: List.replicate n true)).1.bitCnt.toNat = n + 1 ∧
      (d.preRun (false :: List.replicate n true)).2 = []) := by
  induction n with
  | zero =>
    obtain ⟨hmode', hones', hbit'⟩ := rxStep_counts_of_decode hmode hones (by simp) false
    rw [List.replicate_zero, preRun_singleton]
    refine ⟨by simpa using hmode', hones', fun h0 => ?_⟩
    obtain ⟨hcnt, hnone⟩ := hbit' (by simp [h0])
    exact ⟨by rw [hcnt, h0]; rfl, by rw [hnone]; rfl⟩
  | succ n ih =>
    obtain ⟨hmode, hones, hbit⟩ := ih (by omega)
    rw [List.replicate_succ', ← List.cons_append, preRun_append, preRun_singleton]
    generalize d.preRun (false :: List.replicate n true) = r at *
    obtain ⟨hmode', hones', hbit'⟩ := rxStep_counts_of_decode hmode (by omega) hones true
    have hne : n ≠ 4 := by omega
    refine ⟨by simpa [hne] using hmode', by simpa [stuffBit, maxOnes, hne] using hones', fun h0 => ?_⟩
    obtain ⟨hcnt, hout⟩ := hbit h0
    obtain ⟨hcnt', hnone⟩ := hbit' (by omega)
    have hadd : (r.1.bitCnt + 1).toNat = n + 1 + 1 := by bv_omega
    exact ⟨by rw [hcnt', hadd], by rw [hout, hnone]; rfl⟩

/-- The fifth one leads to SkipOne, the sixth to SkipTwo, and the zero back to Decode at a byte boundary. -/
theorem Decoder.preRun_last_three_of_sync (hmode : d.mode = .decode) (hones : d.onesCnt = BitVec.ofNat 3 4) :
    (d.preRun [true, true, false]).1.mode = .decode ∧
    (d.preRun [true, true, false]).1.bitCnt = 0 ∧
    (d.preRun [true, true, false]).1.onesCnt = 0 ∧
    (d.bitCnt.toNat ≤ 6 → (d.preRun [true, true, false]).2 = []) := by
  obtain ⟨hskip, hzero, hbit⟩ := rxStep_counts_of_decode hmode (le_refl 4) hones true
  rw [preRun_cons (e := (d.rxStep (true ^^ d.lastRaw)).1) (out := (d.rxStep (true ^^ d.lastRaw)).2) rfl]
  generalize d.rxStep (true ^^ d.lastRaw) = r at *
  rw [if_pos ⟨rfl, rfl⟩] at hskip
  rw [preRun_cons (rxStep_of_skipOne hskip _), preRun_singleton]
  have hzero' : r.1.onesCnt = 0 := hzero
  simpa [rxStep_of_skipTwo, hzero'] using fun h => (hbit h).2

/-- A sync word in Decode realigns the byte boundary (R171). -/
theorem Decoder.preRun_sync_of_decode (hmode : d.mode = .decode) (hones : d.onesCnt.toNat ≤ 4) :
    (d.preRun sync).1.mode = .decode ∧ (d.preRun sync).1.bitCnt = 0 ∧ (d.preRun sync).1.onesCnt = 0 ∧
    (d.preRun sync).1.lastRaw = d.lastRaw ∧ (d.bitCnt = 0 → (d.preRun sync).2 = []) := by
  have hlast : (d.preRun sync).1.lastRaw = d.lastRaw := by
    rw [preRun, rxRun_lastRaw]
    cases d.lastRaw <;> rfl
  obtain ⟨hmode₁, hones₁, hbit₁⟩ := preRun_zero_ones hmode hones (le_refl 4)
  have hrun := d.preRun_append (false :: List.replicate 4 true) [true, true, false]
  generalize d.preRun (false :: List.replicate 4 true) = r₁ at *
  obtain ⟨hmode₂, hcnt₂, hones₂, hout₂⟩ := preRun_last_three_of_sync hmode₁ hones₁
  generalize r₁.1.preRun [true, true, false] = r₂ at *
  have hsplit : sync = (false :: List.replicate 4 true) ++ [true, true, false] := rfl
  rw [hlast, hsplit, hrun]
  refine ⟨hmode₂, hcnt₂, hones₂, rfl, fun h0 => ?_⟩
  obtain ⟨hcnt₁, hout₁⟩ := hbit₁ h0
  rw [hout₁, hout₂ (by omega)]
  rfl

end

/-! ### A complemented line (R178) -/

theorem differential_not (level : Bit) (pre : List Bit) :
    differential (!level) pre = (differential level pre).map (!·) := by
  induction pre generalizing level with
  | nil => rfl
  | cons b bs ih =>
    have hflip : (b ^^ !level) = !(b ^^ level) := by cases b <;> cases level <;> rfl
    rw [differential, hflip, ih, differential, List.map_cons]

/-- The decoder that has seen the complemented line. -/
def Decoder.complement (d : Decoder) : Decoder := { d with lastRaw := !d.lastRaw }

theorem Decoder.waitSyncArm_complement (d : Decoder) : d.complement.waitSyncArm = d.waitSyncArm.complement := by
  simp only [waitSyncArm, wrapBitCnt, apply_ite complement]
  rfl

theorem Decoder.waitStartArm_complement (d : Decoder) : d.complement.waitStartArm = d.waitStartArm.complement := by
  simp only [waitStartArm, apply_ite complement]
  rfl

theorem Decoder.recovered_complement (d : Decoder) (raw : Bit) :
    (d.complement.lastRaw ^^ !raw) = (d.lastRaw ^^ raw) := by
  simp [complement]

/-- Step 1 and the common part recover the same bit. -/
theorem Decoder.shiftIn_complement (d : Decoder) (raw : Bit) :
    (({ d with lastRaw := raw } : Decoder).shiftIn (d.lastRaw ^^ raw)).complement =
      ({ d.complement with lastRaw := !raw } : Decoder).shiftIn (d.complement.lastRaw ^^ !raw) := by
  rw [recovered_complement]
  rfl

/-- The decoder reads changes of the line only: complementing the line complements `lastRaw` and nothing else. -/
theorem Decoder.rxStep_complement (d : Decoder) (raw : Bit) :
    d.complement.rxStep (!raw) = ((d.rxStep raw).1.complement, (d.rxStep raw).2) := by
  have hshift := d.shiftIn_complement raw
  cases hmode : d.mode with
  | skipOne =>
    rw [rxStep_of_skipOne hmode, rxStep_of_skipOne (d := d.complement) hmode, recovered_complement]
    rfl
  | skipTwo =>
    rw [rxStep_of_skipTwo hmode, rxStep_of_skipTwo (d := d.complement) hmode, recovered_complement,
      apply_ite complement]
    rfl
  | waitSync =>
    rw [rxStep_of_waitSync hmode rfl, rxStep_of_waitSync (d := d.complement) hmode hshift, waitSyncArm_complement]
  | waitStart =>
    rw [rxStep_of_waitStart hmode rfl, rxStep_of_waitStart (d := d.complement) hmode hshift, waitStartArm_complement]
  | decode =>
    rw [rxStep_of_decode hmode rfl, rxStep_of_decode (d := d.complement) hmode hshift]
    rfl

theorem Decoder.rxRun_complement (d : Decoder) (bits : List Bit) :
    d.complement.rxRun (bits.map (!·)) = ((d.rxRun bits).1.complement, (d.rxRun bits).2) := by
  induction bits generalizing d with
  | nil => rfl
  | cons b bs ih => simp only [List.map_cons, Decoder.rxRun, rxStep_complement, ih]

/-- The decoder after reset and a complemented sync word: seven ones and a zero in the buffer, no match. -/
def Decoder.passedInverted : Decoder := { reset with shiftBuf := 0xFE }

theorem Decoder.rxRun_reset_inverted_sync :
    reset.rxRun ((differential false sync).map (!·)) = (passedInverted.complement, []) := rfl

/-- What is left in the buffer does not matter to the next sync word. -/
theorem Decoder.preRun_passedInverted_sync : passedInverted.preRun sync = reset.preRun sync := rfl

theorem preSequence_succ (p r : Nat) (text : List CodeUnit) :
    preSequence (p + 1) r text = sync ++ preSequence p r text := by
  simp [preSequence]

/-- A transmission begins with a sync word, of the preamble or of the first burst. -/
theorem exists_preSequence_eq_sync_append {r : Nat} (hr : r ≠ 0) (p : Nat) (text : List CodeUnit) :
    ∃ rest, preSequence p r text = sync ++ rest := by
  cases p with
  | succ p => exact ⟨_, preSequence_succ p r text⟩
  | zero =>
    obtain ⟨n, rfl⟩ := Nat.exists_eq_succ_of_ne_zero hr
    exact ⟨_, by simp only [preSequence, encodeRepetitions, syncWords_zero, syncWords_succ, List.nil_append,
      List.append_assoc]; rfl⟩

/-- The first preamble word of a complemented line is lost; the rest is a transmission with one preamble word less. -/
theorem Decoder.rxRun_inverted_lineBits {r : Nat} (hr : r ≠ 0) (p : Nat) (text : List CodeUnit) :
    ∃ raw, reset.rxRun ((lineBits (p + 1) r text).map (!·)) = (ended raw, (List.replicate r text).flatten) := by
  obtain ⟨rest, hrest⟩ := exists_preSequence_eq_sync_append hr p text
  obtain ⟨raw, hrun⟩ := preRun_preSequence hr p text
  have hline : lineBits (p + 1) r text = differential false sync ++ differential false (preSequence p r text) := by
    rw [lineBits, preSequence_succ, differential_append]
    rfl
  have hsame : passedInverted.rxRun (differential false (preSequence p r text)) =
      reset.preRun (preSequence p r text) := by
    change passedInverted.preRun (preSequence p r text) = _
    rw [hrest, preRun_append, preRun_append, preRun_passedInverted_sync]
  refine ⟨!raw, ?_⟩
  rw [hline, List.map_append, rxRun_append, rxRun_reset_inverted_sync, rxRun_complement, hsame, hrun]
  rfl

end Sys2Proof.Machine

namespace Sys2Proof.Proofs
open Sys2Proof.Machine

/-- Settles O50: the decoder reads the complemented line as a transmission with its first preamble word lost. -/
theorem invertedLineDecodesWithAPreamble : Obligations.InvertedLineDecodesWithAPreamble := by
  intro s p r text hdec hlog hp hr
  obtain ⟨p, rfl⟩ := Nat.exists_eq_add_of_le' hp
  obtain ⟨raw, hrun⟩ := Decoder.rxRun_inverted_lineBits (Nat.one_le_iff_ne_zero.1 hr) p text
  exact ⟨_, execAll_rxbits _ _, by simp [hdec, hlog, hrun], by simp [hdec, hrun, Decoder.ended]⟩

/-- Settles O51: one `RXBIT` per line bit of a sync word is the decoder's run over the sync word. -/
theorem syncWordInDecodeIsPassedOver : Obligations.SyncWordInDecodeIsPassedOver := by
  intro s hmode hones
  have hrun := Decoder.preRun_sync_of_decode hmode hones
  rw [Decoder.preRun] at hrun
  generalize differential s.dec.lastRaw sync = bits at *
  obtain ⟨hmode', hcnt, hones', hlast, hout⟩ := hrun
  exact ⟨_, execAll_rxbits bits s, hmode', hcnt, hones', hlast, fun h0 => by simp [hout h0]⟩

/-- Settles O52: of the commands only `RXBIT` and `RXRESET` write the mode, and `RXBIT` as the arms do. -/
theorem waitSyncIsReenteredOnlyFromSkipTwo : Obligations.WaitSyncIsReenteredOnlyFromSkipTwo := by
  intro i s t h
  by_cases hreset : i = .rxreset
  · exact ⟨fun _ _ => .inl hreset, fun _ _ => .inr hreset⟩
  by_cases hbit : ∃ raw, i = .rxbit raw
  · obtain ⟨raw, rfl⟩ := hbit
    cases (execRxbit_eq raw s).symm.trans h
    refine ⟨fun hne hsync => .inr ?_, fun hstart hne => .inl ?_⟩
    · obtain ⟨hskip, rfl⟩ := Decoder.skipTwo_of_rxStep_waitSync hne hsync
      exact ⟨hskip, rfl⟩
    · exact (Decoder.rxStep_mode_of_waitStart hstart raw).resolve_left hne
  · obtain ⟨-, hdec⟩ := exec_rx (fun raw hi => hbit ⟨raw, hi⟩) h
    obtain ⟨hdec, -⟩ := hdec hreset
    rw [hdec]
    exact ⟨fun hne hsync => absurd hsync hne, fun hstart hne => absurd hstart hne⟩

/-- Settles O48: `RXRESET` leaves the decoder of the hardware reset and an empty `rxLog`, and a run of bits depends on
the decoder alone. -/
theorem rxresetEqualsAFreshDecoder : Obligations.RxresetEqualsAFreshDecoder :=
  fun s bits => ⟨_, _, execAll_rxbits bits { s with dec := Decoder.reset, rxLog := [] },
    execAll_rxbits bits State.reset, rfl, rfl, rfl⟩

/-- Settles O43: one register at a time; the four that the common part does not write stay. -/
theorem commonPartShiftsTheRecoveredBitIn : Obligations.CommonPartShiftsTheRecoveredBitIn := by
  refine fun d r => ⟨toNat_shiftBit d.shiftBuf r, fun hcnt => ?_, fun hr => ?_, fun hr => ?_, rfl, rfl, rfl, rfl⟩
  · have hfits : d.bitCnt.toNat + (1 : BitVec 4).toNat < 2 ^ 4 := Nat.lt_of_le_of_lt (Nat.succ_le_succ hcnt) (by decide)
    exact BitVec.toNat_add_of_lt hfits
  · simp [Decoder.shiftIn, hr]
  · rw [← toNat_onesCnt_add_one, Decoder.shiftIn, hr]
    rfl

end Sys2Proof.Proofs
